-- ==== Sys2Proof/Word.lean ====
section
/-! DEFINITION. The word types of the 80287 and of the 80286 at its interface. -/

namespace Sys2Proof

/-- A byte of memory or of the instruction stream (spec 20 R100). -/
abbrev Byte := BitVec 8

/-- A 16-bit word: the unit the data channel moves (spec 20 R108), and the width of the status, control and tag
words (spec 10 R20). -/
abbrev Word := BitVec 16

/-- The 80 bits of a temporary real: bit 79 the sign, bits 78:64 the biased exponent, bits 63:0 the significand
with its explicit integer bit (spec 10 R21). -/
abbrev TempReal := BitVec 80

/-- A number of a stack register ST(i) (spec 10 R22), or of a physical register. -/
abbrev RegNum := BitVec 3

end Sys2Proof
end

