-- ==== Sys2Proof/Config.lean ====
section
/-! DEFINITION. The parameters of the spec that no source fixes, and the free values: constants without a body, so
that nothing can be proved of what they are (log 7). -/

namespace Sys2Proof.Config

/-- A finite magnitude num / den * 2^exp (den is 1 but for quotients and free values). -/
structure Mag where
  num : Nat
  den : Nat
  exp : Int
deriving DecidableEq, Repr, Inhabited

/-- A signed finite value: what TRANSC answers (spec 43 R281). -/
structure SignedMag where
  neg : Bool
  mag : Mag
deriving DecidableEq, Repr, Inhabited

/-- The two-operand operations whose results on unnormals are open (spec 41 R192). -/
inductive BinOp where
  | add | sub | mul | div
deriving DecidableEq, Repr

/-- What the parameter UNNORMAL_ARITH leaves to choose (spec 11 R75): how many leading zeros an
unnormal result's significand has, how many low bits a result drops, which neighbour is taken, whether the sum of a normal and
an unnormal of equal magnitude is normal, and the exponent field of a zero-valued result. -/
structure UnnormalChoice where
  lead : Nat
  drop : Nat
  up : Bool
  normal : Bool
  expo : Nat
deriving DecidableEq, Repr, Inhabited

/-! ## Parameters of the spec (functions of the operands) -/

/-- UNNORMAL_ARITH (spec 11 R75): operation, whether reversed, destination, source, control word. Log 30. -/
opaque unnormalArith : BinOp → Bool → TempReal → TempReal → Word → UnnormalChoice

/-- Whether a pseudo zero divided by a true zero is 0 / 0 (invalid) or a zero divide (spec 11 R76, 41 R216). Log 30. -/
opaque pseudoZeroOverZeroInvalid : Bool

/-- UNMASKED_OU_RESULT (spec 41 R193): the value an unmasked overflow or underflow delivers to a register, by the
sign and magnitude of the exact result and the control word. Log 31. -/
opaque unmaskedOU : Bool → Mag → Word → TempReal

/-- FPREM_STEP (spec 41 R232), brought into 1..64 where it is used. Log 34. -/
opaque fpremStep : Nat → Nat

/-- Whether FSCALE overflowing on a denormal with integer bit 1, by operand and scale, takes the normal row of spec 11
R81; else the unnormal row. No rule says which (spec 41 R228). Log 34. -/
opaque scaledDenormalNormal : TempReal → Int → Bool

/-- CONST_BITS (spec 44 R301): whether each constant is the next 64-bit value above its truncation. Log 42. -/
opaque piUp : Bool
opaque l2tUp : Bool
opaque l2eUp : Bool
opaque lg2Up : Bool
opaque ln2Up : Bool

/-- TRANSC.ptan (spec 43 R285): Y and X. Log 41. -/
opaque ptan : SignedMag → SignedMag × SignedMag
/-- TRANSC.patan (spec 43 R286), of y and x. Log 41. -/
opaque patan : SignedMag → SignedMag → SignedMag
/-- TRANSC.f2xm1 (spec 43 R287). Log 41. -/
opaque f2xm1 : SignedMag → SignedMag
/-- TRANSC.yl2x (spec 43 R288), of x and y. Log 41. -/
opaque yl2x : SignedMag → SignedMag → SignedMag
/-- TRANSC.yl2xp1 (spec 43 R289), of x and y. Log 41. -/
opaque yl2xp1 : SignedMag → SignedMag → SignedMag

/-! ## Free values, numbered by State.draws -/

/-- Condition codes the source does not define (spec 10 R26). Log 23. -/
opaque freeCC : Nat → BitVec 4
/-- The selector part of FDP after an instruction without a memory operand (spec 10 R45). Log 22. -/
opaque freeDataSel : Nat → Word
/-- The offset part of FDP after an instruction without a memory operand (spec 10 R45). Log 22. -/
opaque freeDataOff : Nat → Word
/-- An undefined 80-bit result (spec 41 R228, 43 R282, 40 R178). -/
opaque freeReg : Nat → TempReal
/-- The second undefined 80-bit result of an instruction that writes two (spec 43 R282). -/
opaque freeReg2 : Nat → TempReal
/-- UE and PE after a transcendental with an invalid operand (spec 43 R282): the flags that get set. Log 41. -/
opaque freeTranscFlags : Nat → BitVec 6
/-- The low 64 bits of the packed decimal indefinite (spec 11 R77). Log 40. -/
opaque freeDecimalLow : Nat → BitVec 64
/-- Bit 6 of the control word after an initialization (spec 10 R37). Log 4. -/
opaque freeCwBit6 : Nat → Bool
/-- Whether the NEU stays busy after interrupt 9 (spec 60 R393). Log 14. -/
opaque staysBusy : Nat → Bool
/-- Whether the pop, or the effect after the transfer, of a store that ended in interrupt 9 took place (spec 60 R393).
Log 14. -/
opaque overrunCompletes : Nat → Bool
/-- TOP after a load that ended in interrupt 9 (spec 60 R393). Log 14. -/
opaque freeTop : Nat → BitVec 3
/-- The tag of the destination of a load that ended in interrupt 9 (spec 60 R393). Log 14. -/
opaque freeTag : Nat → BitVec 2
/-- The bytes of an operand that ended in interrupt 9: those a load is taken to have read, and those a store leaves in
memory (spec 20 R112, 60 R393). Log 14. -/
opaque freeByte : Nat → Nat → Byte
/-- The return address interrupt 9 saves: selector (spec 60 R393). Log 14. -/
opaque freeLinkSel : Nat → Word
/-- The return address interrupt 9 saves: offset (spec 60 R393). Log 14. -/
opaque freeLinkOff : Nat → Word
/-- Which fields of the status word FNSTSW shows as the instruction in flight will leave them (spec 70 R442): the six
flags, the four condition code bits, TOP. Log 44. -/
opaque earlyFields : Nat → BitVec 11

end Sys2Proof.Config
end

