-- ==== Sys2Proof/Syntax.lean ====
section
/-! DEFINITION. The instructions of the 80287 as data: one constructor per row of spec/opcode_table.json. -/

namespace Sys2Proof

/-- A segment register of the 80286 an override byte can name (spec 30 R143, 20 R113). -/
inductive Seg where
  | es | cs | ss | ds
deriving DecidableEq, Repr

/-- The base and index registers of the eight R/M codes, in the order 000B to 111B (spec 30 R139). -/
inductive Base where
  | bxsi | bxdi | bpsi | bpdi | si | di | bp | bx
deriving DecidableEq, Repr

/-- A memory operand as the ModRM byte and the displacement give it (spec 30 R139): a direct 16-bit address, or
base registers with no displacement, an 8-bit displacement (sign-extended) or a 16-bit one. `base .bp` has no
encoding: its place is the direct form's. -/
inductive MemArg where
  | direct (addr : BitVec 16)
  | base (b : Base)
  | base8 (b : Base) (disp : BitVec 8)
  | base16 (b : Base) (disp : BitVec 16)
deriving DecidableEq, Repr

/-- One constructor per row of spec/opcode_table.json. `p` lists the segment override bytes in front of the
instruction (spec 30 R143), `m` is the memory operand, `i` the number of the stack register ST(i). Each docstring
gives the spec's name and the rule of its meaning. -/
inductive Instr where
  /-- FADD m32r (R198). -/
  | faddM32r (p : List Seg) (m : MemArg)
  /-- FMUL m32r (R214). -/
  | fmulM32r (p : List Seg) (m : MemArg)
  /-- FCOM m32r (R254). -/
  | fcomM32r (p : List Seg) (m : MemArg)
  /-- FCOMP m32r (R256). -/
  | fcompM32r (p : List Seg) (m : MemArg)
  /-- FSUB m32r (R203). -/
  | fsubM32r (p : List Seg) (m : MemArg)
  /-- FSUBR m32r (R208). -/
  | fsubrM32r (p : List Seg) (m : MemArg)
  /-- FDIV m32r (R220). -/
  | fdivM32r (p : List Seg) (m : MemArg)
  /-- FDIVR m32r (R225). -/
  | fdivrM32r (p : List Seg) (m : MemArg)
  /-- FADD ST,ST(i) (R195). -/
  | faddStSti (p : List Seg) (i : RegNum)
  /-- FMUL ST,ST(i) (R211). -/
  | fmulStSti (p : List Seg) (i : RegNum)
  /-- FCOM ST(i) (R253). -/
  | fcomSti (p : List Seg) (i : RegNum)
  /-- FCOMP ST(i) (R255). -/
  | fcompSti (p : List Seg) (i : RegNum)
  /-- FSUB ST,ST(i) (R200). -/
  | fsubStSti (p : List Seg) (i : RegNum)
  /-- FSUBR ST,ST(i) (R205). -/
  | fsubrStSti (p : List Seg) (i : RegNum)
  /-- FDIV ST,ST(i) (R217). -/
  | fdivStSti (p : List Seg) (i : RegNum)
  /-- FDIVR ST,ST(i) (R222). -/
  | fdivrStSti (p : List Seg) (i : RegNum)
  /-- FLD m32r (R164). -/
  | fldM32r (p : List Seg) (m : MemArg)
  /-- FST m32r (R171). -/
  | fstM32r (p : List Seg) (m : MemArg)
  /-- FSTP m32r (R174). -/
  | fstpM32r (p : List Seg) (m : MemArg)
  /-- FLDENV m14 (R329). -/
  | fldenvM14 (p : List Seg) (m : MemArg)
  /-- FLDCW m2 (R322). -/
  | fldcwM2 (p : List Seg) (m : MemArg)
  /-- FNSTENV m14 (R327). -/
  | fnstenvM14 (p : List Seg) (m : MemArg)
  /-- FNSTCW m2 (R323). -/
  | fnstcwM2 (p : List Seg) (m : MemArg)
  /-- FLD ST(i) (R163). -/
  | fldSti (p : List Seg) (i : RegNum)
  /-- FXCH ST(i) (R185). -/
  | fxchSti (p : List Seg) (i : RegNum)
  /-- FNOP (R341). -/
  | fnop (p : List Seg)
  /-- FCHS (R234). -/
  | fchs (p : List Seg)
  /-- FABS (R233). -/
  | fabs (p : List Seg)
  /-- FTST (R260). -/
  | ftst (p : List Seg)
  /-- FXAM (R262). -/
  | fxam (p : List Seg)
  /-- FLD1 (R303). -/
  | fld1 (p : List Seg)
  /-- FLDL2T (R305). -/
  | fldl2t (p : List Seg)
  /-- FLDL2E (R306). -/
  | fldl2e (p : List Seg)
  /-- FLDPI (R304). -/
  | fldpi (p : List Seg)
  /-- FLDLG2 (R307). -/
  | fldlg2 (p : List Seg)
  /-- FLDLN2 (R308). -/
  | fldln2 (p : List Seg)
  /-- FLDZ (R302). -/
  | fldz (p : List Seg)
  /-- F2XM1 (R287). -/
  | f2xm1 (p : List Seg)
  /-- FYL2X (R288). -/
  | fyl2x (p : List Seg)
  /-- FPTAN (R285). -/
  | fptan (p : List Seg)
  /-- FPATAN (R286). -/
  | fpatan (p : List Seg)
  /-- FXTRACT (R230). -/
  | fxtract (p : List Seg)
  /-- FDECSTP (R339). -/
  | fdecstp (p : List Seg)
  /-- FINCSTP (R338). -/
  | fincstp (p : List Seg)
  /-- FPREM (R232). -/
  | fprem (p : List Seg)
  /-- FYL2XP1 (R289). -/
  | fyl2xp1 (p : List Seg)
  /-- FSQRT (R227). -/
  | fsqrt (p : List Seg)
  /-- FRNDINT (R229). -/
  | frndint (p : List Seg)
  /-- FSCALE (R228). -/
  | fscale (p : List Seg)
  /-- FIADD m32i (R199). -/
  | fiaddM32i (p : List Seg) (m : MemArg)
  /-- FIMUL m32i (R215). -/
  | fimulM32i (p : List Seg) (m : MemArg)
  /-- FICOM m32i (R258). -/
  | ficomM32i (p : List Seg) (m : MemArg)
  /-- FICOMP m32i (R259). -/
  | ficompM32i (p : List Seg) (m : MemArg)
  /-- FISUB m32i (R204). -/
  | fisubM32i (p : List Seg) (m : MemArg)
  /-- FISUBR m32i (R209). -/
  | fisubrM32i (p : List Seg) (m : MemArg)
  /-- FIDIV m32i (R221). -/
  | fidivM32i (p : List Seg) (m : MemArg)
  /-- FIDIVR m32i (R226). -/
  | fidivrM32i (p : List Seg) (m : MemArg)
  /-- FILD m32i (R183). -/
  | fildM32i (p : List Seg) (m : MemArg)
  /-- FIST m32i (R177). -/
  | fistM32i (p : List Seg) (m : MemArg)
  /-- FISTP m32i (R179). -/
  | fistpM32i (p : List Seg) (m : MemArg)
  /-- FLD m80r (R181). -/
  | fldM80r (p : List Seg) (m : MemArg)
  /-- FSTP m80r (R175). -/
  | fstpM80r (p : List Seg) (m : MemArg)
  /-- FNENI (R346). -/
  | fneni (p : List Seg)
  /-- FNDISI (R346). -/
  | fndisi (p : List Seg)
  /-- FNCLEX (R325). -/
  | fnclex (p : List Seg)
  /-- FNINIT (R319). -/
  | fninit (p : List Seg)
  /-- FSETPM (R321). -/
  | fsetpm (p : List Seg)
  /-- FADD m64r (R198). -/
  | faddM64r (p : List Seg) (m : MemArg)
  /-- FMUL m64r (R214). -/
  | fmulM64r (p : List Seg) (m : MemArg)
  /-- FCOM m64r (R254). -/
  | fcomM64r (p : List Seg) (m : MemArg)
  /-- FCOMP m64r (R256). -/
  | fcompM64r (p : List Seg) (m : MemArg)
  /-- FSUB m64r (R203). -/
  | fsubM64r (p : List Seg) (m : MemArg)
  /-- FSUBR m64r (R208). -/
  | fsubrM64r (p : List Seg) (m : MemArg)
  /-- FDIV m64r (R220). -/
  | fdivM64r (p : List Seg) (m : MemArg)
  /-- FDIVR m64r (R225). -/
  | fdivrM64r (p : List Seg) (m : MemArg)
  /-- FADD ST(i),ST (R196). -/
  | faddStiSt (p : List Seg) (i : RegNum)
  /-- FMUL ST(i),ST (R212). -/
  | fmulStiSt (p : List Seg) (i : RegNum)
  /-- FSUBR ST(i),ST (R206). -/
  | fsubrStiSt (p : List Seg) (i : RegNum)
  /-- FSUB ST(i),ST (R201). -/
  | fsubStiSt (p : List Seg) (i : RegNum)
  /-- FDIVR ST(i),ST (R223). -/
  | fdivrStiSt (p : List Seg) (i : RegNum)
  /-- FDIV ST(i),ST (R218). -/
  | fdivStiSt (p : List Seg) (i : RegNum)
  /-- FLD m64r (R165). -/
  | fldM64r (p : List Seg) (m : MemArg)
  /-- FST m64r (R172). -/
  | fstM64r (p : List Seg) (m : MemArg)
  /-- FSTP m64r (R174). -/
  | fstpM64r (p : List Seg) (m : MemArg)
  /-- FRSTOR m94 (R337). -/
  | frstorM94 (p : List Seg) (m : MemArg)
  /-- FNSAVE m94 (R335). -/
  | fnsaveM94 (p : List Seg) (m : MemArg)
  /-- FNSTSW m2 (R324). -/
  | fnstswM2 (p : List Seg) (m : MemArg)
  /-- FFREE ST(i) (R340). -/
  | ffreeSti (p : List Seg) (i : RegNum)
  /-- FST ST(i) (R170). -/
  | fstSti (p : List Seg) (i : RegNum)
  /-- FSTP ST(i) (R173). -/
  | fstpSti (p : List Seg) (i : RegNum)
  /-- FIADD m16i (R199). -/
  | fiaddM16i (p : List Seg) (m : MemArg)
  /-- FIMUL m16i (R215). -/
  | fimulM16i (p : List Seg) (m : MemArg)
  /-- FICOM m16i (R258). -/
  | ficomM16i (p : List Seg) (m : MemArg)
  /-- FICOMP m16i (R259). -/
  | ficompM16i (p : List Seg) (m : MemArg)
  /-- FISUB m16i (R204). -/
  | fisubM16i (p : List Seg) (m : MemArg)
  /-- FISUBR m16i (R209). -/
  | fisubrM16i (p : List Seg) (m : MemArg)
  /-- FIDIV m16i (R221). -/
  | fidivM16i (p : List Seg) (m : MemArg)
  /-- FIDIVR m16i (R226). -/
  | fidivrM16i (p : List Seg) (m : MemArg)
  /-- FADDP ST(i),ST (R197). -/
  | faddpStiSt (p : List Seg) (i : RegNum)
  /-- FMULP ST(i),ST (R213). -/
  | fmulpStiSt (p : List Seg) (i : RegNum)
  /-- FSUBRP ST(i),ST (R207). -/
  | fsubrpStiSt (p : List Seg) (i : RegNum)
  /-- FSUBP ST(i),ST (R202). -/
  | fsubpStiSt (p : List Seg) (i : RegNum)
  /-- FDIVRP ST(i),ST (R224). -/
  | fdivrpStiSt (p : List Seg) (i : RegNum)
  /-- FDIVP ST(i),ST (R219). -/
  | fdivpStiSt (p : List Seg) (i : RegNum)
  /-- FCOMPP (R257). -/
  | fcompp (p : List Seg)
  /-- FILD m16i (R182). -/
  | fildM16i (p : List Seg) (m : MemArg)
  /-- FIST m16i (R177). -/
  | fistM16i (p : List Seg) (m : MemArg)
  /-- FISTP m16i (R179). -/
  | fistpM16i (p : List Seg) (m : MemArg)
  /-- FBLD m80d (R178). -/
  | fbldM80d (p : List Seg) (m : MemArg)
  /-- FILD m64i (R184). -/
  | fildM64i (p : List Seg) (m : MemArg)
  /-- FBSTP m80d (R180). -/
  | fbstpM80d (p : List Seg) (m : MemArg)
  /-- FISTP m64i (R179). -/
  | fistpM64i (p : List Seg) (m : MemArg)
  /-- FNSTSW AX (R328). -/
  | fnstswAx (p : List Seg)
  /-- FWAIT (R345). -/
  | fwait (p : List Seg)
deriving DecidableEq, Repr

/-- The segment override bytes in front of an instruction. -/
def Instr.overrides : Instr → List Seg
  | .faddM32r p _ => p
  | .fmulM32r p _ => p
  | .fcomM32r p _ => p
  | .fcompM32r p _ => p
  | .fsubM32r p _ => p
  | .fsubrM32r p _ => p
  | .fdivM32r p _ => p
  | .fdivrM32r p _ => p
  | .faddStSti p _ => p
  | .fmulStSti p _ => p
  | .fcomSti p _ => p
  | .fcompSti p _ => p
  | .fsubStSti p _ => p
  | .fsubrStSti p _ => p
  | .fdivStSti p _ => p
  | .fdivrStSti p _ => p
  | .fldM32r p _ => p
  | .fstM32r p _ => p
  | .fstpM32r p _ => p
  | .fldenvM14 p _ => p
  | .fldcwM2 p _ => p
  | .fnstenvM14 p _ => p
  | .fnstcwM2 p _ => p
  | .fldSti p _ => p
  | .fxchSti p _ => p
  | .fnop p => p
  | .fchs p => p
  | .fabs p => p
  | .ftst p => p
  | .fxam p => p
  | .fld1 p => p
  | .fldl2t p => p
  | .fldl2e p => p
  | .fldpi p => p
  | .fldlg2 p => p
  | .fldln2 p => p
  | .fldz p => p
  | .f2xm1 p => p
  | .fyl2x p => p
  | .fptan p => p
  | .fpatan p => p
  | .fxtract p => p
  | .fdecstp p => p
  | .fincstp p => p
  | .fprem p => p
  | .fyl2xp1 p => p
  | .fsqrt p => p
  | .frndint p => p
  | .fscale p => p
  | .fiaddM32i p _ => p
  | .fimulM32i p _ => p
  | .ficomM32i p _ => p
  | .ficompM32i p _ => p
  | .fisubM32i p _ => p
  | .fisubrM32i p _ => p
  | .fidivM32i p _ => p
  | .fidivrM32i p _ => p
  | .fildM32i p _ => p
  | .fistM32i p _ => p
  | .fistpM32i p _ => p
  | .fldM80r p _ => p
  | .fstpM80r p _ => p
  | .fneni p => p
  | .fndisi p => p
  | .fnclex p => p
  | .fninit p => p
  | .fsetpm p => p
  | .faddM64r p _ => p
  | .fmulM64r p _ => p
  | .fcomM64r p _ => p
  | .fcompM64r p _ => p
  | .fsubM64r p _ => p
  | .fsubrM64r p _ => p
  | .fdivM64r p _ => p
  | .fdivrM64r p _ => p
  | .faddStiSt p _ => p
  | .fmulStiSt p _ => p
  | .fsubrStiSt p _ => p
  | .fsubStiSt p _ => p
  | .fdivrStiSt p _ => p
  | .fdivStiSt p _ => p
  | .fldM64r p _ => p
  | .fstM64r p _ => p
  | .fstpM64r p _ => p
  | .frstorM94 p _ => p
  | .fnsaveM94 p _ => p
  | .fnstswM2 p _ => p
  | .ffreeSti p _ => p
  | .fstSti p _ => p
  | .fstpSti p _ => p
  | .fiaddM16i p _ => p
  | .fimulM16i p _ => p
  | .ficomM16i p _ => p
  | .ficompM16i p _ => p
  | .fisubM16i p _ => p
  | .fisubrM16i p _ => p
  | .fidivM16i p _ => p
  | .fidivrM16i p _ => p
  | .faddpStiSt p _ => p
  | .fmulpStiSt p _ => p
  | .fsubrpStiSt p _ => p
  | .fsubpStiSt p _ => p
  | .fdivrpStiSt p _ => p
  | .fdivpStiSt p _ => p
  | .fcompp p => p
  | .fildM16i p _ => p
  | .fistM16i p _ => p
  | .fistpM16i p _ => p
  | .fbldM80d p _ => p
  | .fildM64i p _ => p
  | .fbstpM80d p _ => p
  | .fistpM64i p _ => p
  | .fnstswAx p => p
  | .fwait p => p

/-- The memory operand of an instruction, where its row has one. -/
def Instr.operand : Instr → Option MemArg
  | .faddM32r _ m => some m
  | .fmulM32r _ m => some m
  | .fcomM32r _ m => some m
  | .fcompM32r _ m => some m
  | .fsubM32r _ m => some m
  | .fsubrM32r _ m => some m
  | .fdivM32r _ m => some m
  | .fdivrM32r _ m => some m
  | .faddStSti _ _ => none
  | .fmulStSti _ _ => none
  | .fcomSti _ _ => none
  | .fcompSti _ _ => none
  | .fsubStSti _ _ => none
  | .fsubrStSti _ _ => none
  | .fdivStSti _ _ => none
  | .fdivrStSti _ _ => none
  | .fldM32r _ m => some m
  | .fstM32r _ m => some m
  | .fstpM32r _ m => some m
  | .fldenvM14 _ m => some m
  | .fldcwM2 _ m => some m
  | .fnstenvM14 _ m => some m
  | .fnstcwM2 _ m => some m
  | .fldSti _ _ => none
  | .fxchSti _ _ => none
  | .fnop _ => none
  | .fchs _ => none
  | .fabs _ => none
  | .ftst _ => none
  | .fxam _ => none
  | .fld1 _ => none
  | .fldl2t _ => none
  | .fldl2e _ => none
  | .fldpi _ => none
  | .fldlg2 _ => none
  | .fldln2 _ => none
  | .fldz _ => none
  | .f2xm1 _ => none
  | .fyl2x _ => none
  | .fptan _ => none
  | .fpatan _ => none
  | .fxtract _ => none
  | .fdecstp _ => none
  | .fincstp _ => none
  | .fprem _ => none
  | .fyl2xp1 _ => none
  | .fsqrt _ => none
  | .frndint _ => none
  | .fscale _ => none
  | .fiaddM32i _ m => some m
  | .fimulM32i _ m => some m
  | .ficomM32i _ m => some m
  | .ficompM32i _ m => some m
  | .fisubM32i _ m => some m
  | .fisubrM32i _ m => some m
  | .fidivM32i _ m => some m
  | .fidivrM32i _ m => some m
  | .fildM32i _ m => some m
  | .fistM32i _ m => some m
  | .fistpM32i _ m => some m
  | .fldM80r _ m => some m
  | .fstpM80r _ m => some m
  | .fneni _ => none
  | .fndisi _ => none
  | .fnclex _ => none
  | .fninit _ => none
  | .fsetpm _ => none
  | .faddM64r _ m => some m
  | .fmulM64r _ m => some m
  | .fcomM64r _ m => some m
  | .fcompM64r _ m => some m
  | .fsubM64r _ m => some m
  | .fsubrM64r _ m => some m
  | .fdivM64r _ m => some m
  | .fdivrM64r _ m => some m
  | .faddStiSt _ _ => none
  | .fmulStiSt _ _ => none
  | .fsubrStiSt _ _ => none
  | .fsubStiSt _ _ => none
  | .fdivrStiSt _ _ => none
  | .fdivStiSt _ _ => none
  | .fldM64r _ m => some m
  | .fstM64r _ m => some m
  | .fstpM64r _ m => some m
  | .frstorM94 _ m => some m
  | .fnsaveM94 _ m => some m
  | .fnstswM2 _ m => some m
  | .ffreeSti _ _ => none
  | .fstSti _ _ => none
  | .fstpSti _ _ => none
  | .fiaddM16i _ m => some m
  | .fimulM16i _ m => some m
  | .ficomM16i _ m => some m
  | .ficompM16i _ m => some m
  | .fisubM16i _ m => some m
  | .fisubrM16i _ m => some m
  | .fidivM16i _ m => some m
  | .fidivrM16i _ m => some m
  | .faddpStiSt _ _ => none
  | .fmulpStiSt _ _ => none
  | .fsubrpStiSt _ _ => none
  | .fsubpStiSt _ _ => none
  | .fdivrpStiSt _ _ => none
  | .fdivpStiSt _ _ => none
  | .fcompp _ => none
  | .fildM16i _ m => some m
  | .fistM16i _ m => some m
  | .fistpM16i _ m => some m
  | .fbldM80d _ m => some m
  | .fildM64i _ m => some m
  | .fbstpM80d _ m => some m
  | .fistpM64i _ m => some m
  | .fnstswAx _ => none
  | .fwait _ => none

end Sys2Proof
end

