-- ==== Sys2Proof/WellFormed.lean ====
section
/-! DEFINITION. Which instructions have an encoding. -/

namespace Sys2Proof

/-- A memory operand with an encoding: `base .bp` has none, its code is the direct form's (spec 30 R139). -/
def MemArg.WellFormed : MemArg → Bool
  | .base .bp => false
  | _ => true

/-- The displacement bytes of a memory operand (spec 30 R131). -/
def MemArg.dispBytes : MemArg → Nat
  | .direct _ => 2
  | .base _ => 0
  | .base8 _ _ => 1
  | .base16 _ _ => 2

/-- The bytes of an instruction after its overrides: FWAIT one, an ESC two and its displacement (spec 30 R131, R151). -/
def Instr.bodySize (i : Instr) : Nat :=
  match i with
  | .fwait _ => 1
  | i => match i.operand with
    | some m => 2 + m.dispBytes
    | none => 2

/-- Its operand has an encoding, and it is no longer than the ten bytes the 80286 takes (log 10). -/
def Instr.WellFormed (i : Instr) : Bool :=
  (match i.operand with
    | some m => m.WellFormed
    | none => true) &&
  decide (i.overrides.length + i.bodySize ≤ 10)

end Sys2Proof
end

