-- ==== Sys2Proof/Decode.lean ====
section
/-! DEFINITION. The decoder, total on any bytes and refusing by name, and the encoder written from the same
tables (spec 30 R133 to R157). -/

namespace Sys2Proof

/-- Why the decoder gives no instruction: the bytes end inside one, an ESC code no row assigns (spec 30 R146), a LOCK or
repeat prefix (spec 30 R143), or an opcode of the 80286's own (spec 00 R5). -/
inductive DecodeError where
  | truncated
  | unassignedEsc
  | lockOrRepeat
  | cpuInstruction
deriving DecidableEq, Repr

/-- A ModRM byte from its MOD, opcode extension and R/M fields (spec 30 R130). -/
def modRM (mod : BitVec 2) (ext rm : BitVec 3) : Byte := mod ++ ext ++ rm

/-- MOD, bits 7:6 of the second byte (spec 30 R130). -/
def modField (b : Byte) : BitVec 2 := b.extractLsb' 6 2

/-- Bits 5:3 of the second byte: the opcode extension, or the row of a register form (spec 30 R130). -/
def extField (b : Byte) : BitVec 3 := b.extractLsb' 3 3

/-- R/M, bits 2:0 of the second byte (spec 30 R130). -/
def rmField (b : Byte) : BitVec 3 := b.extractLsb' 0 3

/-- The low byte of a word. -/
def lowByte (w : Word) : Byte := w.extractLsb' 0 8

/-- The high byte of a word. -/
def highByte (w : Word) : Byte := w.extractLsb' 8 8

/-- A word from its bytes, low byte first in memory (spec 20 R100). -/
def wordOf (lo hi : Byte) : Word := hi ++ lo

/-- The override byte of a segment register (spec 30 R143). -/
def Seg.code : Seg → Byte
  | .es => 0x26
  | .cs => 0x2E
  | .ss => 0x36
  | .ds => 0x3E

/-- The segment register an override byte names (spec 30 R143). -/
def Seg.ofByte (b : Byte) : Option Seg :=
  match b.toNat with
  | 0x26 => some .es
  | 0x2E => some .cs
  | 0x36 => some .ss
  | 0x3E => some .ds
  | _ => none

/-- The R/M code of a choice of base registers (spec 30 R139). -/
def Base.code : Base → BitVec 3
  | .bxsi => 0
  | .bxdi => 1
  | .bpsi => 2
  | .bpdi => 3
  | .si => 4
  | .di => 5
  | .bp => 6
  | .bx => 7

/-- The base registers of an R/M code (spec 30 R139). -/
def Base.ofCode (rm : BitVec 3) : Base :=
  match rm.toNat with
  | 0 => .bxsi
  | 1 => .bxdi
  | 2 => .bpsi
  | 3 => .bpdi
  | 4 => .si
  | 5 => .di
  | 6 => .bp
  | _ => .bx

/-- The memory operand that MOD, R/M and the displacement bytes give (spec 30 R139), with the bytes after it. MOD =
11B is no memory form: `truncated` stands there and is never reached from `decodeEsc`. -/
def decodeMemArg (mod : BitVec 2) (rm : BitVec 3) (rest : List Byte) : Except DecodeError (MemArg × List Byte) :=
  match mod.toNat, rest with
  | 0, rest =>
    if rm = 6 then
      match rest with
      | lo :: hi :: rest => .ok (.direct (wordOf lo hi), rest)
      | _ => .error .truncated
    else .ok (.base (Base.ofCode rm), rest)
  | 1, d :: rest => .ok (.base8 (Base.ofCode rm) d, rest)
  | 2, lo :: hi :: rest => .ok (.base16 (Base.ofCode rm) (wordOf lo hi), rest)
  | _, _ => .error .truncated

/-- Memory forms of first byte D8H, by bits 5:3 of the second byte (spec 30 R134). -/
def decodeMemD8 (ext : Nat) (p : List Seg) (m : MemArg) : Option Instr :=
  match ext with
  | 0 => some (.faddM32r p m)
  | 1 => some (.fmulM32r p m)
  | 2 => some (.fcomM32r p m)
  | 3 => some (.fcompM32r p m)
  | 4 => some (.fsubM32r p m)
  | 5 => some (.fsubrM32r p m)
  | 6 => some (.fdivM32r p m)
  | 7 => some (.fdivrM32r p m)
  | _ => none

/-- Memory forms of first byte D9H, by bits 5:3 of the second byte (spec 30 R135). -/
def decodeMemD9 (ext : Nat) (p : List Seg) (m : MemArg) : Option Instr :=
  match ext with
  | 0 => some (.fldM32r p m)
  | 2 => some (.fstM32r p m)
  | 3 => some (.fstpM32r p m)
  | 4 => some (.fldenvM14 p m)
  | 5 => some (.fldcwM2 p m)
  | 6 => some (.fnstenvM14 p m)
  | 7 => some (.fnstcwM2 p m)
  | _ => none

/-- Memory forms of first byte DAH, by bits 5:3 of the second byte (spec 30 R136). -/
def decodeMemDA (ext : Nat) (p : List Seg) (m : MemArg) : Option Instr :=
  match ext with
  | 0 => some (.fiaddM32i p m)
  | 1 => some (.fimulM32i p m)
  | 2 => some (.ficomM32i p m)
  | 3 => some (.ficompM32i p m)
  | 4 => some (.fisubM32i p m)
  | 5 => some (.fisubrM32i p m)
  | 6 => some (.fidivM32i p m)
  | 7 => some (.fidivrM32i p m)
  | _ => none

/-- Memory forms of first byte DBH, by bits 5:3 of the second byte (spec 30 R137). -/
def decodeMemDB (ext : Nat) (p : List Seg) (m : MemArg) : Option Instr :=
  match ext with
  | 0 => some (.fildM32i p m)
  | 2 => some (.fistM32i p m)
  | 3 => some (.fistpM32i p m)
  | 5 => some (.fldM80r p m)
  | 7 => some (.fstpM80r p m)
  | _ => none

/-- Memory forms of first byte DCH, by bits 5:3 of the second byte (spec 30 R138). -/
def decodeMemDC (ext : Nat) (p : List Seg) (m : MemArg) : Option Instr :=
  match ext with
  | 0 => some (.faddM64r p m)
  | 1 => some (.fmulM64r p m)
  | 2 => some (.fcomM64r p m)
  | 3 => some (.fcompM64r p m)
  | 4 => some (.fsubM64r p m)
  | 5 => some (.fsubrM64r p m)
  | 6 => some (.fdivM64r p m)
  | 7 => some (.fdivrM64r p m)
  | _ => none

/-- Memory forms of first byte DDH, by bits 5:3 of the second byte (spec 30 R140). -/
def decodeMemDD (ext : Nat) (p : List Seg) (m : MemArg) : Option Instr :=
  match ext with
  | 0 => some (.fldM64r p m)
  | 2 => some (.fstM64r p m)
  | 3 => some (.fstpM64r p m)
  | 4 => some (.frstorM94 p m)
  | 6 => some (.fnsaveM94 p m)
  | 7 => some (.fnstswM2 p m)
  | _ => none

/-- Memory forms of first byte DEH, by bits 5:3 of the second byte (spec 30 R144). -/
def decodeMemDE (ext : Nat) (p : List Seg) (m : MemArg) : Option Instr :=
  match ext with
  | 0 => some (.fiaddM16i p m)
  | 1 => some (.fimulM16i p m)
  | 2 => some (.ficomM16i p m)
  | 3 => some (.ficompM16i p m)
  | 4 => some (.fisubM16i p m)
  | 5 => some (.fisubrM16i p m)
  | 6 => some (.fidivM16i p m)
  | 7 => some (.fidivrM16i p m)
  | _ => none

/-- Memory forms of first byte DFH, by bits 5:3 of the second byte (spec 30 R145). -/
def decodeMemDF (ext : Nat) (p : List Seg) (m : MemArg) : Option Instr :=
  match ext with
  | 0 => some (.fildM16i p m)
  | 2 => some (.fistM16i p m)
  | 3 => some (.fistpM16i p m)
  | 4 => some (.fbldM80d p m)
  | 5 => some (.fildM64i p m)
  | 6 => some (.fbstpM80d p m)
  | 7 => some (.fistpM64i p m)
  | _ => none

/-- The memory forms: first byte, then bits 5:3 of the second (spec 30 R133). -/
def decodeMem (b1 ext : Nat) (p : List Seg) (m : MemArg) : Option Instr :=
  match b1 with
  | 0xD8 => decodeMemD8 ext p m
  | 0xD9 => decodeMemD9 ext p m
  | 0xDA => decodeMemDA ext p m
  | 0xDB => decodeMemDB ext p m
  | 0xDC => decodeMemDC ext p m
  | 0xDD => decodeMemDD ext p m
  | 0xDE => decodeMemDE ext p m
  | 0xDF => decodeMemDF ext p m
  | _ => none

/-- Register and no-operand forms of first byte D8H, by bits 5:3 and 2:0 of the second byte (spec 30 R134). -/
def decodeRegD8 (ext : Nat) (i : RegNum) (p : List Seg) : Option Instr :=
  match ext with
  | 0 => some (.faddStSti p i)
  | 1 => some (.fmulStSti p i)
  | 2 => some (.fcomSti p i)
  | 3 => some (.fcompSti p i)
  | 4 => some (.fsubStSti p i)
  | 5 => some (.fsubrStSti p i)
  | 6 => some (.fdivStSti p i)
  | 7 => some (.fdivrStSti p i)
  | _ => none

/-- Register and no-operand forms of first byte D9H, by bits 5:3 and 2:0 of the second byte (spec 30 R135). -/
def decodeRegD9 (ext : Nat) (i : RegNum) (p : List Seg) : Option Instr :=
  match ext with
  | 0 => some (.fldSti p i)
  | 1 => some (.fxchSti p i)
  | 2 =>
    match i.toNat with
    | 0 => some (.fnop p)
    | _ => none
  | 4 =>
    match i.toNat with
    | 0 => some (.fchs p)
    | 1 => some (.fabs p)
    | 4 => some (.ftst p)
    | 5 => some (.fxam p)
    | _ => none
  | 5 =>
    match i.toNat with
    | 0 => some (.fld1 p)
    | 1 => some (.fldl2t p)
    | 2 => some (.fldl2e p)
    | 3 => some (.fldpi p)
    | 4 => some (.fldlg2 p)
    | 5 => some (.fldln2 p)
    | 6 => some (.fldz p)
    | _ => none
  | 6 =>
    match i.toNat with
    | 0 => some (.f2xm1 p)
    | 1 => some (.fyl2x p)
    | 2 => some (.fptan p)
    | 3 => some (.fpatan p)
    | 4 => some (.fxtract p)
    | 6 => some (.fdecstp p)
    | 7 => some (.fincstp p)
    | _ => none
  | 7 =>
    match i.toNat with
    | 0 => some (.fprem p)
    | 1 => some (.fyl2xp1 p)
    | 2 => some (.fsqrt p)
    | 4 => some (.frndint p)
    | 5 => some (.fscale p)
    | _ => none
  | _ => none

/-- Register and no-operand forms of first byte DBH, by bits 5:3 and 2:0 of the second byte (spec 30 R137). -/
def decodeRegDB (ext : Nat) (i : RegNum) (p : List Seg) : Option Instr :=
  match ext with
  | 4 =>
    match i.toNat with
    | 0 => some (.fneni p)
    | 1 => some (.fndisi p)
    | 2 => some (.fnclex p)
    | 3 => some (.fninit p)
    | 4 => some (.fsetpm p)
    | _ => none
  | _ => none

/-- Register and no-operand forms of first byte DCH, by bits 5:3 and 2:0 of the second byte (spec 30 R138). -/
def decodeRegDC (ext : Nat) (i : RegNum) (p : List Seg) : Option Instr :=
  match ext with
  | 0 => some (.faddStiSt p i)
  | 1 => some (.fmulStiSt p i)
  | 4 => some (.fsubrStiSt p i)
  | 5 => some (.fsubStiSt p i)
  | 6 => some (.fdivrStiSt p i)
  | 7 => some (.fdivStiSt p i)
  | _ => none

/-- Register and no-operand forms of first byte DDH, by bits 5:3 and 2:0 of the second byte (spec 30 R140). -/
def decodeRegDD (ext : Nat) (i : RegNum) (p : List Seg) : Option Instr :=
  match ext with
  | 0 => some (.ffreeSti p i)
  | 2 => some (.fstSti p i)
  | 3 => some (.fstpSti p i)
  | _ => none

/-- Register and no-operand forms of first byte DEH, by bits 5:3 and 2:0 of the second byte (spec 30 R144). -/
def decodeRegDE (ext : Nat) (i : RegNum) (p : List Seg) : Option Instr :=
  match ext with
  | 0 => some (.faddpStiSt p i)
  | 1 => some (.fmulpStiSt p i)
  | 3 =>
    match i.toNat with
    | 1 => some (.fcompp p)
    | _ => none
  | 4 => some (.fsubrpStiSt p i)
  | 5 => some (.fsubpStiSt p i)
  | 6 => some (.fdivrpStiSt p i)
  | 7 => some (.fdivpStiSt p i)
  | _ => none

/-- Register and no-operand forms of first byte DFH, by bits 5:3 and 2:0 of the second byte (spec 30 R145). -/
def decodeRegDF (ext : Nat) (i : RegNum) (p : List Seg) : Option Instr :=
  match ext with
  | 4 =>
    match i.toNat with
    | 0 => some (.fnstswAx p)
    | _ => none
  | _ => none

/-- The register and no-operand forms: first byte, then bits 5:3 of the second, then its bits 2:0 (spec 30 R133). Every
register form of first byte DAH is unassigned (spec 30 R136). -/
def decodeReg (b1 ext : Nat) (i : RegNum) (p : List Seg) : Option Instr :=
  match b1 with
  | 0xD8 => decodeRegD8 ext i p
  | 0xD9 => decodeRegD9 ext i p
  | 0xDB => decodeRegDB ext i p
  | 0xDC => decodeRegDC ext i p
  | 0xDD => decodeRegDD ext i p
  | 0xDE => decodeRegDE ext i p
  | 0xDF => decodeRegDF ext i p
  | _ => none

/-- An instruction found, or the refusal of an unassigned ESC code (spec 30 R146). -/
def orUnassigned (rest : List Byte) : Option Instr → Except DecodeError (Instr × List Byte)
  | some i => .ok (i, rest)
  | none => .error .unassignedEsc

/-- An ESC instruction from its second byte on (spec 30 R157 (3)). -/
def decodeEsc (b1 b2 : Byte) (p : List Seg) (rest : List Byte) : Except DecodeError (Instr × List Byte) :=
  if modField b2 = 3 then
    orUnassigned rest (decodeReg b1.toNat (extField b2).toNat (rmField b2) p)
  else
    match decodeMemArg (modField b2) (rmField b2) rest with
    | .ok (m, rest) => orUnassigned rest (decodeMem b1.toNat (extField b2).toNat p m)
    | .error e => .error e

/-- An instruction from its first byte after the overrides on (spec 30 R157): WAIT, an ESC, or a refusal by name. -/
def decodeBody (p : List Seg) : List Byte → Except DecodeError (Instr × List Byte)
  | [] => .error .truncated
  | b1 :: rest =>
    if b1 = 0x9B then .ok (.fwait p, rest)
    else if 0xD8 ≤ b1.toNat ∧ b1.toNat ≤ 0xDF then
      match rest with
      | b2 :: rest => decodeEsc b1 b2 p rest
      | [] => .error .truncated
    else if b1 = 0xF0 ∨ b1 = 0xF2 ∨ b1 = 0xF3 then .error .lockOrRepeat
    else .error .cpuInstruction

/-- The segment override bytes at the front (spec 30 R157 (1)), and what follows them. -/
def takeOverrides : List Byte → List Seg × List Byte
  | [] => ([], [])
  | b :: rest =>
    match Seg.ofByte b with
    | some g => let r := takeOverrides rest; (g :: r.1, r.2)
    | none => ([], b :: rest)

/-- The instruction at the front of a list of bytes, with the bytes after it (spec 30 R157). -/
def decode (bytes : List Byte) : Except DecodeError (Instr × List Byte) :=
  let r := takeOverrides bytes
  decodeBody r.1 r.2

/-! ## The encoder -/

/-- ModRM and displacement bytes of a memory operand with opcode extension `ext` (spec 30 R139). `base .bp` has no
encoding of its own: the bytes given are those of MOD = 00B, R/M = 110B. -/
def encodeMemArg (ext : BitVec 3) : MemArg → List Byte
  | .direct a => [modRM 0 ext 6, lowByte a, highByte a]
  | .base b => [modRM 0 ext b.code]
  | .base8 b d => [modRM 1 ext b.code, d]
  | .base16 b d => [modRM 2 ext b.code, lowByte d, highByte d]

/-- The bytes of an instruction without its overrides, from the opcode map (spec 30 R134 to R145, R151). -/
def encodeBody : Instr → List Byte
  | .faddM32r _ m => 0xD8 :: encodeMemArg 0 m
  | .fmulM32r _ m => 0xD8 :: encodeMemArg 1 m
  | .fcomM32r _ m => 0xD8 :: encodeMemArg 2 m
  | .fcompM32r _ m => 0xD8 :: encodeMemArg 3 m
  | .fsubM32r _ m => 0xD8 :: encodeMemArg 4 m
  | .fsubrM32r _ m => 0xD8 :: encodeMemArg 5 m
  | .fdivM32r _ m => 0xD8 :: encodeMemArg 6 m
  | .fdivrM32r _ m => 0xD8 :: encodeMemArg 7 m
  | .faddStSti _ i => [0xD8, modRM 3 0 i]
  | .fmulStSti _ i => [0xD8, modRM 3 1 i]
  | .fcomSti _ i => [0xD8, modRM 3 2 i]
  | .fcompSti _ i => [0xD8, modRM 3 3 i]
  | .fsubStSti _ i => [0xD8, modRM 3 4 i]
  | .fsubrStSti _ i => [0xD8, modRM 3 5 i]
  | .fdivStSti _ i => [0xD8, modRM 3 6 i]
  | .fdivrStSti _ i => [0xD8, modRM 3 7 i]
  | .fldM32r _ m => 0xD9 :: encodeMemArg 0 m
  | .fstM32r _ m => 0xD9 :: encodeMemArg 2 m
  | .fstpM32r _ m => 0xD9 :: encodeMemArg 3 m
  | .fldenvM14 _ m => 0xD9 :: encodeMemArg 4 m
  | .fldcwM2 _ m => 0xD9 :: encodeMemArg 5 m
  | .fnstenvM14 _ m => 0xD9 :: encodeMemArg 6 m
  | .fnstcwM2 _ m => 0xD9 :: encodeMemArg 7 m
  | .fldSti _ i => [0xD9, modRM 3 0 i]
  | .fxchSti _ i => [0xD9, modRM 3 1 i]
  | .fnop _ => [0xD9, 0xD0]
  | .fchs _ => [0xD9, 0xE0]
  | .fabs _ => [0xD9, 0xE1]
  | .ftst _ => [0xD9, 0xE4]
  | .fxam _ => [0xD9, 0xE5]
  | .fld1 _ => [0xD9, 0xE8]
  | .fldl2t _ => [0xD9, 0xE9]
  | .fldl2e _ => [0xD9, 0xEA]
  | .fldpi _ => [0xD9, 0xEB]
  | .fldlg2 _ => [0xD9, 0xEC]
  | .fldln2 _ => [0xD9, 0xED]
  | .fldz _ => [0xD9, 0xEE]
  | .f2xm1 _ => [0xD9, 0xF0]
  | .fyl2x _ => [0xD9, 0xF1]
  | .fptan _ => [0xD9, 0xF2]
  | .fpatan _ => [0xD9, 0xF3]
  | .fxtract _ => [0xD9, 0xF4]
  | .fdecstp _ => [0xD9, 0xF6]
  | .fincstp _ => [0xD9, 0xF7]
  | .fprem _ => [0xD9, 0xF8]
  | .fyl2xp1 _ => [0xD9, 0xF9]
  | .fsqrt _ => [0xD9, 0xFA]
  | .frndint _ => [0xD9, 0xFC]
  | .fscale _ => [0xD9, 0xFD]
  | .fiaddM32i _ m => 0xDA :: encodeMemArg 0 m
  | .fimulM32i _ m => 0xDA :: encodeMemArg 1 m
  | .ficomM32i _ m => 0xDA :: encodeMemArg 2 m
  | .ficompM32i _ m => 0xDA :: encodeMemArg 3 m
  | .fisubM32i _ m => 0xDA :: encodeMemArg 4 m
  | .fisubrM32i _ m => 0xDA :: encodeMemArg 5 m
  | .fidivM32i _ m => 0xDA :: encodeMemArg 6 m
  | .fidivrM32i _ m => 0xDA :: encodeMemArg 7 m
  | .fildM32i _ m => 0xDB :: encodeMemArg 0 m
  | .fistM32i _ m => 0xDB :: encodeMemArg 2 m
  | .fistpM32i _ m => 0xDB :: encodeMemArg 3 m
  | .fldM80r _ m => 0xDB :: encodeMemArg 5 m
  | .fstpM80r _ m => 0xDB :: encodeMemArg 7 m
  | .fneni _ => [0xDB, 0xE0]
  | .fndisi _ => [0xDB, 0xE1]
  | .fnclex _ => [0xDB, 0xE2]
  | .fninit _ => [0xDB, 0xE3]
  | .fsetpm _ => [0xDB, 0xE4]
  | .faddM64r _ m => 0xDC :: encodeMemArg 0 m
  | .fmulM64r _ m => 0xDC :: encodeMemArg 1 m
  | .fcomM64r _ m => 0xDC :: encodeMemArg 2 m
  | .fcompM64r _ m => 0xDC :: encodeMemArg 3 m
  | .fsubM64r _ m => 0xDC :: encodeMemArg 4 m
  | .fsubrM64r _ m => 0xDC :: encodeMemArg 5 m
  | .fdivM64r _ m => 0xDC :: encodeMemArg 6 m
  | .fdivrM64r _ m => 0xDC :: encodeMemArg 7 m
  | .faddStiSt _ i => [0xDC, modRM 3 0 i]
  | .fmulStiSt _ i => [0xDC, modRM 3 1 i]
  | .fsubrStiSt _ i => [0xDC, modRM 3 4 i]
  | .fsubStiSt _ i => [0xDC, modRM 3 5 i]
  | .fdivrStiSt _ i => [0xDC, modRM 3 6 i]
  | .fdivStiSt _ i => [0xDC, modRM 3 7 i]
  | .fldM64r _ m => 0xDD :: encodeMemArg 0 m
  | .fstM64r _ m => 0xDD :: encodeMemArg 2 m
  | .fstpM64r _ m => 0xDD :: encodeMemArg 3 m
  | .frstorM94 _ m => 0xDD :: encodeMemArg 4 m
  | .fnsaveM94 _ m => 0xDD :: encodeMemArg 6 m
  | .fnstswM2 _ m => 0xDD :: encodeMemArg 7 m
  | .ffreeSti _ i => [0xDD, modRM 3 0 i]
  | .fstSti _ i => [0xDD, modRM 3 2 i]
  | .fstpSti _ i => [0xDD, modRM 3 3 i]
  | .fiaddM16i _ m => 0xDE :: encodeMemArg 0 m
  | .fimulM16i _ m => 0xDE :: encodeMemArg 1 m
  | .ficomM16i _ m => 0xDE :: encodeMemArg 2 m
  | .ficompM16i _ m => 0xDE :: encodeMemArg 3 m
  | .fisubM16i _ m => 0xDE :: encodeMemArg 4 m
  | .fisubrM16i _ m => 0xDE :: encodeMemArg 5 m
  | .fidivM16i _ m => 0xDE :: encodeMemArg 6 m
  | .fidivrM16i _ m => 0xDE :: encodeMemArg 7 m
  | .faddpStiSt _ i => [0xDE, modRM 3 0 i]
  | .fmulpStiSt _ i => [0xDE, modRM 3 1 i]
  | .fsubrpStiSt _ i => [0xDE, modRM 3 4 i]
  | .fsubpStiSt _ i => [0xDE, modRM 3 5 i]
  | .fdivrpStiSt _ i => [0xDE, modRM 3 6 i]
  | .fdivpStiSt _ i => [0xDE, modRM 3 7 i]
  | .fcompp _ => [0xDE, 0xD9]
  | .fildM16i _ m => 0xDF :: encodeMemArg 0 m
  | .fistM16i _ m => 0xDF :: encodeMemArg 2 m
  | .fistpM16i _ m => 0xDF :: encodeMemArg 3 m
  | .fbldM80d _ m => 0xDF :: encodeMemArg 4 m
  | .fildM64i _ m => 0xDF :: encodeMemArg 5 m
  | .fbstpM80d _ m => 0xDF :: encodeMemArg 6 m
  | .fistpM64i _ m => 0xDF :: encodeMemArg 7 m
  | .fnstswAx _ => [0xDF, 0xE0]
  | .fwait _ => [0x9B]

/-- The bytes of a well-formed instruction: its overrides, then its body. -/
def encode (i : Instr) : List Byte := i.overrides.map Seg.code ++ encodeBody i

/-- How many bytes an instruction takes: what the CPU's IP advances by (spec 10 R51, 30 R131). -/
def Instr.length (i : Instr) : Nat := (encode i).length

/-- The 11-bit opcode of an ESC as FOP holds it: bits 2:0 of its first byte, then its second byte (spec 10 R48). -/
def Instr.opcode (i : Instr) : BitVec 11 :=
  match encodeBody i with
  | b1 :: b2 :: _ => (b1.extractLsb' 0 3) ++ b2
  | _ => 0

/-- The longest instruction the 80286 takes, overrides included; PRESUMED, log 10. The decoder reads a window of this
many bytes. -/
def maxLength : Nat := 10

/-- The bytes of an instruction given as a number in the opcode table's way: the first byte in the highest 8 of its
first 16 bits (spec 30 R157: b1 * 256 + b2), a one-byte row in 8 bits; bytes above stay zero. -/
def tableBytes (nbits w : Nat) : List Byte :=
  if nbits ≤ 8 then BitVec.ofNat 8 w :: List.replicate (maxLength - 1) 0
  else BitVec.ofNat 8 (w >>> 8) :: BitVec.ofNat 8 w ::
    (List.range (maxLength - 2)).map fun k => BitVec.ofNat 8 (w >>> (16 + 8 * k))

/-- The instruction the decoder reads from a row's bits (the host's numbering; see `tableBytes`). -/
def decodeTableWord (nbits w : Nat) : Option Instr :=
  match decode (tableBytes nbits w) with
  | .ok (i, _) => some i
  | .error _ => none

end Sys2Proof
end

