-- ==== Sys2Proof/Machine/State.lean ====
section
/-! DEFINITION. The state of the machine: the 80287, the 80286 at its interface, memory and the platform; and the
ways a step can stop. -/

namespace Sys2Proof.Machine

/-- A 2-bit tag of the tag word (spec 10 R40): 00 valid, 01 zero, 10 special, 11 empty. -/
inductive Tag where
  | valid | zero | special | empty
deriving DecidableEq, Repr

/-- The numeric instruction in flight (spec 10 R50 (c)): its opcode, its operand's address and the operand words not
yet transferred; and, for FNSTSW (spec 45 R324, 70 R442; log 44), the flags it sets and clears when it ends, and the
condition code and TOP before it and after it. -/
structure InFlight where
  opcode : BitVec 11
  operandSel : Word
  operandOff : Word
  wordsLeft : Nat
  sets : BitVec 6
  clears : BitVec 6
  oldCc : BitVec 4
  cc : BitVec 4
  oldTop : RegNum
  top : RegNum
deriving DecidableEq, Repr

/-- The state of the 80287 (spec 10 R20, R50). Status word: `cc` holds C3 C2 C1 C0 in bits 3..0, `flags` holds PE UE
OE ZE DE IE in bits 5..0; B and ES are functions (spec 10 R25, R29). The pointers are held as selector and offset (log
20). -/
structure Npx where
  regs : Vector TempReal 8
  tags : Vector Tag 8
  top : RegNum
  cc : BitVec 4
  flags : BitVec 6
  cw : Word
  fipSel : Word
  fipOff : Word
  fdpSel : Word
  fdpOff : Word
  fop : BitVec 11
  pm : Bool
  inFlight : Option InFlight
  imagePending : Bool
deriving DecidableEq, Repr

/-- A segment register of the 80286 with what is in force for it: base, limit and rights (spec 20 R109, R112). -/
structure SegReg where
  sel : Word
  base : BitVec 24
  limit : Word
  readable : Bool
  writable : Bool
deriving DecidableEq, Repr

/-- The state of the 80286 that the rules read or write (spec 10 R51 to R54, 30 R139, 60 R395). -/
structure Cpu where
  ax : Word
  bx : Word
  bp : Word
  si : Word
  di : Word
  sp : Word
  flags : Word
  ip : Word
  cs : SegReg
  ds : SegReg
  es : SegReg
  ss : SegReg
  mp : Bool
  em : Bool
  ts : Bool
  protectedMode : Bool
deriving DecidableEq, Repr

/-- Where the 80286 goes for one vector in Protected mode: a part of HOST_VECTOR (spec 60 R395). The error code of the
gate of interrupt 16 is not used (spec 60 R391). Log 15. -/
structure Gate where
  code : SegReg
  entry : Word
  errorCode : Option Word
deriving DecidableEq, Repr

/-- What the board and the operating system fix, and no step changes: NPX_PRESENT and FLOATING_BUS (spec 70 R426),
IEM_GATES_ERROR (spec 10 R36), the Protected-mode gates of the four vectors and the code segments IRET may return to
(spec 60 R395). Log 17. -/
structure Platform where
  npxPresent : Bool
  floatingBus : Word
  iemGatesError : Bool
  gate7 : Gate
  gate9 : Gate
  gate13 : Gate
  gate16 : Gate
  codeSegments : List SegReg
deriving DecidableEq, Repr

/-- Memory: the bytes that differ from what an unlisted address reads as, by strictly rising physical address. -/
structure Memory where
  cells : List Host.Cell
deriving DecidableEq, Repr

/-- The whole machine. `draws` is the model's own: it numbers the free values (log 7). -/
structure State where
  npx : Npx
  cpu : Cpu
  mem : Memory
  platform : Platform
  draws : Nat
deriving DecidableEq, Repr

/-- Ways the machine stops with a fault. -/
inductive Fault where
  /-- Raised by `iret` in Protected mode when the popped selector names none of the platform's code segments: the
  80286's own fault there is outside the spec (00 R5). Safe: the machine stops. -/
  | noCodeSegment (sel : Word)
deriving DecidableEq, Repr

/-- Ways a step has no meaning. Each is safe: the machine stops. -/
inductive Refusal where
  /-- Raised by `exec` for an instruction whose meaning is not written yet. -/
  | notModelled (mnemonic : String)
  /-- Raised by `step` on an ESC code no row assigns that reaches the NPX (spec 30 R146, 93 U1). -/
  | unassignedEsc
  /-- Raised by `step` on an opcode of the 80286 that the spec does not describe (00 R5). -/
  | cpuInstruction
  /-- Raised by `step` on a LOCK or repeat prefix (spec 30 R143, 93 U22). -/
  | lockOrRepeat
  /-- Raised by `step` on an instruction longer than the ten bytes the 80286 takes (log 10). -/
  | tooLong
  /-- Raised by an ESC or WAIT when MSW.MP and MSW.EM are both set (spec 60 R392, 93 U5). -/
  | mpAndEmSet
  /-- Raised by an ESC between an FNSTENV or FNSAVE and a completed WAIT (spec 70 R441, 93 U7). -/
  | escBeforeWait
  /-- Raised by an add, subtract, multiply, divide or square root when PC is the reserved code 01B (spec 93 U16). -/
  | reservedPrecision
deriving DecidableEq, Repr

/-- What a step or a meaning answers. -/
abbrev Outcome := Host.Outcome State Fault Refusal

/-- The 80287 after a hardware RESET (spec 10 R55, R56, 70 R421). The numeric registers, the pointers and FOP are 0
(log 2, DESIGN CHOICE), the condition code 0 (log 3, DESIGN CHOICE), bit 6 of the control word 1 (log 4, DESIGN CHOICE). -/
def Npx.reset : Npx where
  regs := Vector.replicate 8 0
  tags := Vector.replicate 8 .empty
  top := 0
  cc := 0
  flags := 0
  cw := 0x03FF
  fipSel := 0
  fipOff := 0
  fdpSel := 0
  fdpOff := 0
  fop := 0
  pm := false
  inFlight := none
  imagePending := false

/-- A data or stack segment register as the 80286 resets it (log 5, PRESUMED). -/
def SegReg.reset : SegReg where
  sel := 0
  base := 0
  limit := 0xFFFF
  readable := true
  writable := true

/-- The 80286 after RESET: MSW bits by spec 70 R424, the rest the family's values (log 5, PRESUMED). -/
def Cpu.reset : Cpu where
  ax := 0
  bx := 0
  bp := 0
  si := 0
  di := 0
  sp := 0
  flags := 0x0002
  ip := 0xFFF0
  cs := { sel := 0xF000, base := 0xFF0000, limit := 0xFFFF, readable := true, writable := true }
  ds := SegReg.reset
  es := SegReg.reset
  ss := SegReg.reset
  mp := false
  em := false
  ts := false
  protectedMode := false

/-- A gate of the reset platform (log 17, DESIGN CHOICE): a flat code segment at 0, entry 0. -/
def Gate.reset (errorCode : Option Word) : Gate where
  code := SegReg.reset
  entry := 0
  errorCode := errorCode

/-- The platform of the reset state: an 80287 present, the spec's suggested FLOATING_BUS and its default for IEM
(spec 70 R426, 10 R36; log 17). -/
def Platform.reset : Platform where
  npxPresent := true
  floatingBus := 0xFFFF
  iemGatesError := false
  gate7 := Gate.reset none
  gate9 := Gate.reset none
  gate13 := Gate.reset (some 0)
  gate16 := Gate.reset none
  codeSegments := []

/-- The machine right after RESET: nothing listed in memory. -/
def State.reset : State where
  npx := Npx.reset
  cpu := Cpu.reset
  mem := { cells := [] }
  platform := Platform.reset
  draws := 0

end Sys2Proof.Machine
end

