-- ==== Sys2Proof/Machine/Numeric.lean ====
section
/-! DEFINITION. The numbers of the 80287: fields and classes of a temporary real, exact magnitudes, and rounding
(spec 11). -/

namespace Sys2Proof.Machine

open Sys2Proof.Config (Mag SignedMag)

/-! ## The control word's fields -/

/-- The rounding modes (spec 10 R35). -/
inductive Rounding where
  | nearest | down | up | chop
deriving DecidableEq, Repr

/-- RC, bits 11:10 of the control word (spec 10 R35). -/
def rounding (cw : Word) : Rounding :=
  match (cw.extractLsb' 10 2).toNat with
  | 0 => .nearest
  | 1 => .down
  | 2 => .up
  | _ => .chop

/-- Whether PC, bits 9:8 of the control word, is the reserved code 01B (spec 10 R34). -/
def precisionReserved (cw : Word) : Bool := cw.extractLsb' 8 2 == 1

/-- The significand width PC selects: 11B 64 bits, 10B 53, 00B 24 (spec 10 R34). The reserved code never gets here:
see `precisionReserved`. -/
def precision (cw : Word) : Nat :=
  match (cw.extractLsb' 8 2).toNat with
  | 0 => 24
  | 2 => 53
  | _ => 64

/-- IC, bit 12 of the control word: true is affine closure (spec 10 R35). -/
def affine (cw : Word) : Bool := cw.getLsbD 12

/-! ## Temporary reals -/

/-- A temporary real from its sign, exponent field and significand (spec 10 R21). -/
def packReal (neg : Bool) (e m : Nat) : TempReal := BitVec.ofBool neg ++ BitVec.ofNat 15 e ++ BitVec.ofNat 64 m

/-- The sign, bit 79 (spec 10 R21). -/
def signOf (r : TempReal) : Bool := r.getLsbD 79

/-- The biased exponent field, bits 78:64 (spec 10 R21). -/
def expField (r : TempReal) : Nat := (r.extractLsb' 64 15).toNat

/-- The significand, bits 63:0 (spec 10 R21). -/
def sigOf (r : TempReal) : Nat := (r.extractLsb' 0 64).toNat

/-- A temporary real with its sign bit replaced. -/
def withSign (neg : Bool) (r : TempReal) : TempReal := BitVec.ofBool neg ++ r.extractLsb' 0 79

/-- The real indefinite (spec 11 R77). -/
def indefinite : TempReal := 0xFFFFC000000000000000#80

/-- The zero of a sign. -/
def zeroOf (neg : Bool) : TempReal := packReal neg 0 0

/-- The infinity of a sign (spec 11 R67 (f)). -/
def infinityOf (neg : Bool) : TempReal := packReal neg 0x7FFF 0x8000000000000000

/-- The largest finite number of a sign (spec 11 R81). -/
def largestOf (neg : Bool) : TempReal := packReal neg 0x7FFE 0xFFFFFFFFFFFFFFFF

/-- The classes of a temporary real (spec 11 R67). -/
inductive Class where
  | zero | denormal | normal | unnormal | pseudoZero | infinity | nan
deriving DecidableEq, Repr

/-- The class of a temporary real, from its bits alone (spec 11 R67). -/
def classOf (r : TempReal) : Class :=
  if expField r = 0 then
    if sigOf r = 0 then .zero else .denormal
  else if expField r = 0x7FFF then
    if sigOf r = 0x8000000000000000 then .infinity else .nan
  else if sigOf r = 0 then .pseudoZero
  else if sigOf r < 0x8000000000000000 then .unnormal
  else .normal

/-- `tagof` (spec 10 R41): zero for a true zero, special for denormals, infinities and NaNs, else valid. -/
def tagOf (r : TempReal) : Tag :=
  match classOf r with
  | .zero => .zero
  | .denormal => .special
  | .infinity => .special
  | .nan => .special
  | _ => .valid

/-- The magnitude of a finite temporary real (spec 11 R66): the exponent field 0 has the scale of field 1. -/
def magOf (r : TempReal) : Mag where
  num := sigOf r
  den := 1
  exp := (if expField r = 0 then 1 else (expField r : Int)) - 16446

/-- The temporary real of an integer given by sign and magnitude below 2^64 (spec 11 R70); zero is +0. -/
def ofSignedNat (neg : Bool) (n : Nat) : TempReal :=
  if n = 0 then zeroOf false
  else packReal neg (n.log2 + 16383) (n <<< (63 - n.log2))

/-- The temporary real of an integer (spec 11 R70). -/
def ofInt (n : Int) : TempReal := ofSignedNat (decide (n < 0)) n.natAbs

/-! ## Exact magnitudes -/

/-- Whether a magnitude is zero. -/
def magZero (x : Mag) : Bool := x.num == 0 || x.den == 0

/-- The exponent k with 2^k ≤ x < 2^(k+1), for a positive x. -/
def magLog (x : Mag) : Int :=
  let a := x.num.log2
  let b := x.den.log2
  let k : Int := (a : Int) - (b : Int)
  (if x.den <<< a ≤ x.num <<< b then k else k - 1) + x.exp

/-- The numerator and denominator of x / 2^g. -/
def scaled (x : Mag) (g : Int) : Nat × Nat :=
  let d := x.exp - g
  if 0 ≤ d then (x.num <<< d.toNat, x.den) else (x.num, x.den <<< (-d).toNat)

/-- An integer multiple of a grid, and whether taking it lost anything. -/
structure Rounded where
  count : Nat
  inexact : Bool
deriving DecidableEq, Repr

/-- The rounding of the quotient n / d of a value of the given sign to an integer (spec 11 R80). -/
def roundQuot (rc : Rounding) (neg : Bool) (n d : Nat) : Rounded :=
  let q := n / d
  let r := n % d
  let away : Bool :=
    match rc with
    | .nearest => decide (d < 2 * r) || (decide (2 * r = d) && decide (q % 2 = 1))
    | .down => neg && decide (r ≠ 0)
    | .up => !neg && decide (r ≠ 0)
    | .chop => false
  { count := if away then q + 1 else q, inexact := decide (r ≠ 0) }

/-- A magnitude rounded to a multiple of 2^g (spec 11 R80). -/
def roundAt (rc : Rounding) (neg : Bool) (x : Mag) (g : Int) : Rounded :=
  roundQuot rc neg (scaled x g).1 (scaled x g).2

/-- Whether the magnitude x is below y. -/
def magLt (x y : Mag) : Bool :=
  let e := min x.exp y.exp
  decide ((x.num * y.den) <<< (x.exp - e).toNat < (y.num * x.den) <<< (y.exp - e).toNat)

/-- The exact sum of two signed dyadic values (denominator 1): sign and magnitude. The sign of a zero sum means
nothing. -/
def addSigned (na : Bool) (a : Mag) (nb : Bool) (b : Mag) : Bool × Mag :=
  let e := min a.exp b.exp
  let x := a.num <<< (a.exp - e).toNat
  let y := b.num <<< (b.exp - e).toNat
  if na = nb then (na, { num := x + y, den := 1, exp := e })
  else if y ≤ x then (na, { num := x - y, den := 1, exp := e })
  else (nb, { num := y - x, den := 1, exp := e })

/-- The exact product of two dyadic magnitudes. -/
def mulMag (a b : Mag) : Mag := { num := a.num * b.num, den := 1, exp := a.exp + b.exp }

/-- The exact quotient of two dyadic magnitudes. -/
def divMag (a b : Mag) : Mag := { num := a.num, den := b.num, exp := a.exp - b.exp }

/-- The integer square root, from bit k - 1 down: the largest t whose bits below 2^k are added to s and t * t ≤ n. -/
def isqrtFrom : Nat → Nat → Nat → Nat
  | 0, _, s => s
  | k + 1, n, s => if (s + 1 <<< k) * (s + 1 <<< k) ≤ n then isqrtFrom k n (s + 1 <<< k) else isqrtFrom k n s

/-- A magnitude that rounds as the square root of m * 2^e does, for m < 2^64: its first 96 bits or so, with one sticky bit
below them that is 1 when they are not the whole of it (spec 41 R227). -/
def sqrtMag (m : Nat) (e : Int) : Mag :=
  let odd : Nat := (e % 2).toNat
  let n := m <<< (128 + odd)
  let s := isqrtFrom 97 n 0
  { num := 2 * s + (if s * s = n then 0 else 1), den := 1, exp := (e - odd) / 2 - 65 }

/-! ## Exceptions and their results -/

/-- The six exception flags, in the bit positions of the status word (spec 60 R350). -/
abbrev Flags := BitVec 6

/-- Invalid operation (spec 60 R350). -/
def flagI : Flags := 0b000001#6
/-- Denormalized operand. -/
def flagD : Flags := 0b000010#6
/-- Zero divide. -/
def flagZ : Flags := 0b000100#6
/-- Overflow. -/
def flagO : Flags := 0b001000#6
/-- Underflow. -/
def flagU : Flags := 0b010000#6
/-- Precision. -/
def flagP : Flags := 0b100000#6

/-- The masks, bits 5:0 of the control word (spec 10 R33). -/
def masksOf (cw : Word) : Flags := cw.extractLsb' 0 6

/-- Whether the mask of a flag is set (spec 60 R351). -/
def masked (cw : Word) (f : Flags) : Bool := masksOf cw &&& f == f

/-- What a computation answers: the flags it signals and its value, or no value when an unmasked exception ended the
instruction before any change (spec 60 R370, R371). -/
structure Out (α : Type) where
  flags : Flags
  value : Option α
deriving DecidableEq, Repr

/-- A value with no exception. -/
def Out.pure {α : Type} (v : α) : Out α := { flags := 0, value := some v }

/-- `signal(X)` for an exception detected before the operation (spec 60 R351, R371): the flag is set; masked, the
computation goes on with the masked response, unmasked it ends. -/
def signalBefore {α : Type} (cw : Word) (f : Flags) (response : α) : Out α :=
  { flags := f, value := if masked cw f then some response else none }

/-- A value with the flags of after exceptions (spec 60 R371): it is delivered whatever the masks. -/
def Out.after {α : Type} (f : Flags) (v : α) : Out α := { flags := f, value := some v }

/-- One computation after another: flags collect, and an ended instruction makes no later check (spec 60 R364). -/
def Out.andThen {α β : Type} (o : Out α) (f : α → Out β) : Out β :=
  match o.value with
  | none => { flags := o.flags, value := none }
  | some v => { flags := o.flags ||| (f v).flags, value := (f v).value }

/-- Flag P when something was lost (spec 60 R363). -/
def flagPIf (b : Bool) : Flags := if b then flagP else 0

/-! ## Delivery of a result to a register -/

/-- Whether a masked overflow gives infinity: nearest and chop always, up and down on the side they point to (spec 11
R81, 60 R359). -/
def overflowToInfinity (rc : Rounding) (neg : Bool) : Bool :=
  match rc with
  | .nearest => true
  | .chop => true
  | .up => !neg
  | .down => neg

/-- A result too large for a register: O and P with the masked response `big` or infinity (spec 41 R193 (b)); unmasked,
O alone and the value is the parameter's (log 31). -/
def deliverOverflow (cw : Word) (neg : Bool) (x : Mag) (big : TempReal) : Out TempReal :=
  if masked cw flagO then
    .after (flagO ||| flagP) (if overflowToInfinity (rounding cw) neg then infinityOf neg else big)
  else .after flagO (Config.unmaskedOU neg x cw)

/-- A result below 2^-16382: U, and masked the denormal or zero of spec 41 R193 (a), P if bits were lost; unmasked, U alone
and the value is the parameter's (log 31). -/
def deliverUnderflow (cw : Word) (p : Nat) (neg : Bool) (x : Mag) : Out TempReal :=
  if masked cw flagU then
    let g := max (-16445) (magLog x - p + 1)
    let r := roundAt (rounding cw) neg x g
    let sig := r.count <<< (g + 16445).toNat
    .after (flagU ||| flagPIf r.inexact) (packReal neg (if sig = 0x8000000000000000 then 1 else 0) sig)
  else .after flagU (Config.unmaskedOU neg x cw)

/-- A normal temporary real of value count * 2^g, for a count of p bits or the next power of two. -/
def packNormal (neg : Bool) (p : Nat) (l : Int) (count : Nat) : TempReal :=
  if count = 1 <<< p then packReal neg (l + 16384).toNat 0x8000000000000000
  else packReal neg (l + 16383).toNat (count <<< (64 - p))

/-- `deliver` (spec 41 R193): a nonzero finite exact result, rounded to p bits, on its way to a register. -/
def deliver (cw : Word) (p : Nat) (neg : Bool) (x : Mag) : Out TempReal :=
  let l := magLog x
  if l < -16382 then deliverUnderflow cw p neg x
  else
    let r := roundAt (rounding cw) neg x (l - p + 1)
    let l' := if r.count = 1 <<< p then l + 1 else l
    if 16384 ≤ l' then deliverOverflow cw neg x (largestOf neg)
    else .after (flagPIf r.inexact) (packNormal neg p l r.count)

end Sys2Proof.Machine
end

