-- ==== Sys2Proof/Machine/Flags.lean ====
section
/-! DEFINITION. The status word, the tag word, the condition codes and the ERROR line (spec 10, 42). -/

namespace Sys2Proof.Machine

/-- The four condition code bits from C3, C2, C1, C0. -/
def ccOf (c3 c2 c1 c0 : Bool) : BitVec 4 := BitVec.ofBool c3 ++ BitVec.ofBool c2 ++ BitVec.ofBool c1 ++ BitVec.ofBool c0

/-- The outcome of a comparison of ST with a source (spec 42 R251). -/
inductive Order where
  | greater | less | equal | unordered
deriving DecidableEq, Repr

/-- The condition code of a comparison (spec 42 R251); C1 is not defined and keeps what `free` has there. -/
def ccOfOrder (o : Order) (free : BitVec 4) : BitVec 4 :=
  match o with
  | .greater => ccOf false false (free.getLsbD 1) false
  | .less => ccOf false false (free.getLsbD 1) true
  | .equal => ccOf true false (free.getLsbD 1) false
  | .unordered => ccOf true true (free.getLsbD 1) true

/-- The condition code FXAM gives a nonempty register (spec 42 R262): C1 the sign, C3 C2 C0 the class. -/
def ccOfClass (c : Class) (neg : Bool) : BitVec 4 :=
  match c with
  | .unnormal => ccOf false false neg false
  | .pseudoZero => ccOf false false neg false
  | .nan => ccOf false false neg true
  | .normal => ccOf false true neg false
  | .infinity => ccOf false true neg true
  | .zero => ccOf true false neg false
  | .denormal => ccOf true true neg false

/-- The condition code FXAM gives an empty register (spec 42 R262): C3 and C0 are 1, C2 and C1 not defined. -/
def ccEmpty (free : BitVec 4) : BitVec 4 := ccOf true (free.getLsbD 2) (free.getLsbD 1) true

/-- Whether some flag is set whose mask is 0 (spec 10 R29). -/
def unmaskedFlag (flags : Flags) (cw : Word) : Bool := flags &&& ~~~(masksOf cw) != 0

/-- ES and the ERROR line (spec 10 R29); with IEM_GATES_ERROR also control word bit 7 must be 0 (spec 10 R36). -/
def errorActive (pl : Platform) (n : Npx) : Bool :=
  unmaskedFlag n.flags n.cw && (!pl.iemGatesError || !n.cw.getLsbD 7)

/-- Whether the NEU is executing: something is in flight (spec 10 R50). It drives the BUSY line. -/
def Npx.busy (n : Npx) : Bool := n.inFlight.isSome

/-- The status word from its parts (spec 10 R24); bit 6 reads 0 (spec 10 R30). -/
def statusOf (b es : Bool) (cc : BitVec 4) (top : RegNum) (flags : Flags) : Word :=
  BitVec.ofBool b ++ cc.extractLsb' 3 1 ++ top ++ cc.extractLsb' 0 3 ++ BitVec.ofBool es ++ 0#1 ++ flags

/-- The status word an idle NPX stores: B is NEU_busy OR ES (spec 10 R25). -/
def statusWord (pl : Platform) (n : Npx) : Word :=
  statusOf (n.busy || errorActive pl n) (errorActive pl n) n.cc n.top n.flags

/-- The bits of `new` where `pick` is 1, of `old` elsewhere. -/
def mixed {w : Nat} (pick old new : BitVec w) : BitVec w := (old &&& ~~~pick) ||| (new &&& pick)

/-- The status word FNSTSW shows while an instruction is in flight: B is 1, and each flag, each condition code bit and TOP
is its value before that instruction or after it, as `pick` has it (spec 45 R324, 70 R442; log 44). -/
def statusInFlight (pl : Platform) (n : Npx) (g : InFlight) (pick : BitVec 11) : Word :=
  let flags := mixed (pick.extractLsb' 0 6) n.flags ((n.flags &&& ~~~g.clears) ||| g.sets)
  statusOf true (errorActive pl { n with flags := flags }) (mixed (pick.extractLsb' 6 4) g.oldCc g.cc)
    (if pick.getLsbD 10 then g.top else g.oldTop) flags

/-- The status word FNSTSW stores (spec 45 R324). -/
def statusWordNow (pl : Platform) (n : Npx) (draw : Nat) : Word :=
  match n.inFlight with
  | some g => statusInFlight pl n g (Config.earlyFields draw)
  | none => statusWord pl n

/-- The 2-bit code of a tag (spec 10 R40). -/
def Tag.code : Tag → BitVec 2
  | .valid => 0
  | .zero => 1
  | .special => 2
  | .empty => 3

/-- The tag of a 2-bit code (spec 10 R40). -/
def Tag.ofCode (c : BitVec 2) : Tag :=
  match c.toNat with
  | 0 => .valid
  | 1 => .zero
  | 2 => .special
  | _ => .empty

/-- The tag word: the tag of physical register p in bits 2p+1:2p (spec 10 R39). -/
def tagWord (t : Vector Tag 8) : Word :=
  t[7].code ++ t[6].code ++ t[5].code ++ t[4].code ++ t[3].code ++ t[2].code ++ t[1].code ++ t[0].code

/-- The tags of a tag word, as an image gives them (spec 10 R39, R42). -/
def tagsOfWord (w : Word) : Vector Tag 8 := Vector.ofFn fun p => Tag.ofCode (w.extractLsb' (2 * p.val) 2)

end Sys2Proof.Machine
end

