-- ==== Sys2Proof/Machine/Operands.lean ====
section
/-! DEFINITION. Operands: the address of a memory operand, and the conversions between the memory formats and
temporary real (spec 11, 30, 40). -/

namespace Sys2Proof.Machine

/-! ## The address of a memory operand (HOST_EA, spec 30 R139, R141) -/

/-- The sum of the base and index registers of an R/M code (spec 30 R139). -/
def baseValue (c : Cpu) : Base → Word
  | .bxsi => c.bx + c.si
  | .bxdi => c.bx + c.di
  | .bpsi => c.bp + c.si
  | .bpdi => c.bp + c.di
  | .si => c.si
  | .di => c.di
  | .bp => c.bp
  | .bx => c.bx

/-- The 16-bit offset of a memory operand, modulo 2^16 (spec 30 R139); an 8-bit displacement is sign-extended. -/
def operandOffset (c : Cpu) : MemArg → Word
  | .direct a => a
  | .base b => baseValue c b
  | .base8 b d => baseValue c b + d.signExtend 16
  | .base16 b d => baseValue c b + d

/-- Whether the base registers include BP. -/
def Base.usesBp : Base → Bool
  | .bpsi => true
  | .bpdi => true
  | .bp => true
  | _ => false

/-- The default segment: SS for the modes that use BP, DS otherwise (spec 20 R113). -/
def defaultSeg : MemArg → Seg
  | .direct _ => .ds
  | .base b => if Base.usesBp b then .ss else .ds
  | .base8 b _ => if Base.usesBp b then .ss else .ds
  | .base16 b _ => if Base.usesBp b then .ss else .ds

/-- The segment of a memory operand: the last override byte, or the default (spec 30 R143; log 10). -/
def operandSeg (overrides : List Seg) (m : MemArg) : Seg := overrides.getLast?.getD (defaultSeg m)

/-- A segment register of the 80286. -/
def Cpu.seg (c : Cpu) : Seg → SegReg
  | .es => c.es
  | .cs => c.cs
  | .ss => c.ss
  | .ds => c.ds

/-! ## Bytes and integers -/

/-- The n bytes of a number, least significant first (spec 20 R100). -/
def leBytes (n v : Nat) : List Byte := (List.range n).map fun k => BitVec.ofNat 8 (v >>> (8 * k))

/-- The number of a list of bytes, least significant first (spec 20 R100). -/
def leNat : List Byte → Nat
  | [] => 0
  | b :: rest => b.toNat + leNat rest <<< 8

/-- The two's complement value of a w-bit number (spec 11 R61). -/
def intOf (w v : Nat) : Int := if v < 1 <<< (w - 1) then (v : Int) else (v : Int) - ((1 <<< w : Nat) : Int)

/-! ## Short and long real -/

/-- A memory real format: the bits of its significand with the implicit one, and of its exponent (spec 11 R63). -/
structure RealFormat where
  prec : Nat
  ebits : Nat
deriving DecidableEq, Repr

/-- Short real: 24 significand bits, 8 exponent bits (spec 11 R63). -/
def shortReal : RealFormat := { prec := 24, ebits := 8 }
/-- Long real: 53 significand bits, 11 exponent bits (spec 11 R63). -/
def longReal : RealFormat := { prec := 53, ebits := 11 }

/-- The bytes of a memory real (spec 20 R104). -/
def RealFormat.bytes (f : RealFormat) : Nat := (f.prec + f.ebits) / 8
/-- The largest exponent field: all ones. -/
def RealFormat.maxField (f : RealFormat) : Nat := 1 <<< f.ebits - 1
/-- The exponent bias (spec 11 R63). -/
def RealFormat.bias (f : RealFormat) : Nat := 1 <<< (f.ebits - 1) - 1

/-- A memory real from its sign, exponent field and fraction (spec 11 R63). -/
def packMem (f : RealFormat) (neg : Bool) (e frac : Nat) : Nat :=
  ((if neg then 1 <<< f.ebits else 0) + e) <<< (f.prec - 1) + frac

/-- A source operand: its temporary real, and whether it counts as a denormal (spec 60 R356). -/
structure Source where
  value : TempReal
  denormal : Bool
deriving DecidableEq, Repr

/-- The temporary real of a short or long real (spec 11 R64, R69), and whether it is a denormal. -/
def loadReal (f : RealFormat) (v : Nat) : Source :=
  let t := f.prec - 1
  let frac := (v % 1 <<< t) <<< (63 - t)
  let e := (v >>> t) % 1 <<< f.ebits
  let neg := decide (v >>> (t + f.ebits) % 2 = 1)
  if e = 0 then
    if frac = 0 then { value := zeroOf neg, denormal := false }
    else { value := packReal neg (16384 - f.bias) frac, denormal := true }
  else if e = f.maxField then { value := packReal neg 0x7FFF (0x8000000000000000 + frac), denormal := false }
  else { value := packReal neg (e + 16383 - f.bias) (0x8000000000000000 + frac), denormal := false }

/-- A real store that overflows (spec 40 R168): masked, infinity or the largest finite number with O and P; unmasked, O and
nothing is stored (spec 60 R362). -/
def storeOverflow (cw : Word) (f : RealFormat) (neg : Bool) : Out Nat :=
  if masked cw flagO then
    .after (flagO ||| flagP)
      (if overflowToInfinity (rounding cw) neg then packMem f neg f.maxField 0
       else packMem f neg (f.maxField - 1) (1 <<< (f.prec - 1) - 1))
  else { flags := flagO, value := none }

/-- A real store that underflows (spec 40 R168): masked, the value rounded to the format's smallest spacing with U, and P
if bits were lost; unmasked, U and nothing is stored (spec 60 R362). -/
def storeUnderflow (cw : Word) (f : RealFormat) (neg : Bool) (x : Config.Mag) : Out Nat :=
  if masked cw flagU then
    let r := roundAt (rounding cw) neg x (2 - (f.bias : Int) - f.prec)
    .after (flagU ||| flagPIf r.inexact) (packMem f neg 0 r.count)
  else { flags := flagU, value := none }

/-- `storereal` for a normal (spec 40 R166). A rounded count of 2^prec carries into the exponent field. -/
def storeNormal (cw : Word) (f : RealFormat) (neg : Bool) (x : Config.Mag) : Out Nat :=
  let l := magLog x
  if l < 1 - (f.bias : Int) then storeUnderflow cw f neg x
  else
    let r := roundAt (rounding cw) neg x (l - f.prec + 1)
    let l' := if r.count = 1 <<< f.prec then l + 1 else l
    if (f.bias : Int) < l' then storeOverflow cw f neg
    else .after (flagPIf r.inexact)
      (packMem f neg (l' + f.bias).toNat (if r.count = 1 <<< f.prec then 0 else r.count - 1 <<< (f.prec - 1)))

/-- A register value stored as a short or long real, by its class (spec 40 R166 to R169). -/
def storeReal (cw : Word) (f : RealFormat) (v : TempReal) : Out Nat :=
  let neg := signOf v
  let chopped := (sigOf v % 0x8000000000000000) >>> (64 - f.prec)
  let e : Int := (expField v : Int) - 16383
  match classOf v with
  | .zero => .pure (packMem f neg 0 0)
  | .normal => storeNormal cw f neg (magOf v)
  | .infinity => .pure (packMem f neg f.maxField chopped)
  | .nan => .pure (packMem f neg f.maxField chopped)
  | .denormal => .pure (packMem f neg 0 chopped)
  | _ =>
    if e < 1 - (f.bias : Int) then storeUnderflow cw f neg (magOf v)
    else if e ≤ f.bias then signalBefore cw flagI (packMem f true f.maxField (1 <<< (f.prec - 2)))
    else storeOverflow cw f neg

/-! ## Binary integers -/

/-- `storeint` (spec 40 R176): a register value as a w-bit two's complement number. The range test is on the rounded
integer. A pseudo zero is an unnormal here (spec 11 R74, R76; log 46). -/
def storeInt (cw : Word) (w : Nat) (v : TempReal) : Out Nat :=
  let neg := signOf v
  match classOf v with
  | .zero => .pure 0
  | .normal =>
    let r := roundAt (rounding cw) neg (magOf v) 0
    if r.count < 1 <<< (w - 1) + (if neg then 1 else 0) then
      .after (flagPIf r.inexact) (if neg then (1 <<< w - r.count) % 1 <<< w else r.count)
    else signalBefore cw flagI (1 <<< (w - 1))
  | _ => signalBefore cw flagI (1 <<< (w - 1))

/-! ## Packed decimal -/

/-- The lowest k decimal digits of n, four bits each (spec 11 R62). -/
def toDigits : Nat → Nat → Nat
  | 0, _ => 0
  | k + 1, n => n % 10 + 16 * toDigits k (n / 10)

/-- The value of k packed digits (spec 11 R62). -/
def ofDigits : Nat → Nat → Nat
  | 0, _ => 0
  | k + 1, v => v % 16 + 10 * ofDigits k (v / 16)

/-- Whether k packed digits are all in 0 to 9 (spec 11 R62). -/
def digitsValid : Nat → Nat → Bool
  | 0, _ => true
  | k + 1, v => decide (v % 16 < 10) && digitsValid k (v / 16)

/-- The packed decimal indefinite: sign byte and uppermost digits byte all ones, the rest not defined (spec 11 R77). -/
def decimalIndefinite (draw : Nat) : Nat := 0xFFFF <<< 64 + (Config.freeDecimalLow draw).toNat

/-- What FBSTP stores (spec 40 R180): the magnitude rounded half away from zero, RC not used, no P. -/
def storeDecimal (cw : Word) (draw : Nat) (v : TempReal) : Out Nat :=
  let sign := if signOf v then 1 <<< 79 else 0
  match classOf v with
  | .zero => .pure sign
  | .normal =>
    let q := scaled (magOf v) 0
    let n := (2 * q.1 + q.2) / (2 * q.2)
    if n ≤ 999999999999999999 then .pure (sign + toDigits 18 n)
    else signalBefore cw flagI (decimalIndefinite draw)
  | _ => signalBefore cw flagI (decimalIndefinite draw)

/-- What FBLD pushes (spec 40 R178): the exact value, the sign kept for zero too; any value when a digit is above 9. -/
def loadDecimal (draw : Nat) (b : Nat) : TempReal :=
  let neg := decide (b >>> 79 % 2 = 1)
  if digitsValid 18 b then
    if ofDigits 18 b = 0 then zeroOf neg else ofSignedNat neg (ofDigits 18 b)
  else Config.freeReg draw

end Sys2Proof.Machine
end

