-- ==== Sys2Proof/Machine/Arith.lean ====
section
/-! DEFINITION. What the arithmetic and comparison instructions compute, as functions of values and of the control
word (spec 41, 42). -/

namespace Sys2Proof.Machine

open Sys2Proof.Config (Mag BinOp UnnormalChoice)

/-! ## Shared pieces -/

/-- A register as a source operand (spec 60 R356). -/
def ofReg (r : TempReal) : Source := { value := r, denormal := decide (classOf r = .denormal) }

/-- The NaN an operation returns (spec 11 R79): of two, the one with the larger significand, the destination on a tie
(log 29). -/
def pickNan (dst src : TempReal) : Option TempReal :=
  if classOf dst = .nan then
    if classOf src = .nan ∧ sigOf dst < sigOf src then some src else some dst
  else if classOf src = .nan then some src
  else none

/-- The sign of a zero sum of operands of these signs (spec 11 R86): theirs, or + unless rounding down. -/
def zeroSumSign (cw : Word) (a b : Bool) : Bool :=
  if a = b then a else decide (rounding cw = .down)

/-- An operand as steps 4 to 6 of spec 41 R192 see it: a masked denormal counts as an unnormal. -/
inductive Kind where
  | zero | pseudoZero | unnormal | normal | infinity
deriving DecidableEq, Repr

/-- The kind of an operand that is no NaN. -/
def kindOf (r : TempReal) : Kind :=
  match classOf r with
  | .zero => .zero
  | .pseudoZero => .pseudoZero
  | .normal => .normal
  | .infinity => .infinity
  | _ => .unnormal

/-- A nonzero exact result of class unnormal (spec 11 R74, R75): the choice gives its leading zeros, the low bits
dropped and the neighbour taken; then the checks of spec 41 R193 (log 30). -/
def deliverUnnormal (cw : Word) (p : Nat) (neg : Bool) (x : Mag) (ch : UnnormalChoice) : Out TempReal :=
  let l := magLog x
  let lead : Nat := 1 + ch.lead % 64
  let drop : Nat := ch.drop % 64
  let q := scaled x (l + lead - 63 + drop)
  let inexact := decide (q.1 % q.2 ≠ 0)
  let m := if ch.up && inexact && decide ((q.1 / q.2 + 1) <<< drop < 0x8000000000000000)
    then (q.1 / q.2 + 1) <<< drop else (q.1 / q.2) <<< drop
  if l < -16382 then deliverUnderflow cw p neg x
  else if 0x7FFE < l + lead + 16383 then deliverOverflow cw neg x (packReal neg 0x7FFE m)
  else .after (flagPIf inexact) (packReal neg (l + lead + 16383).toNat m)

/-- A pseudo zero with an exponent field the choice gives (spec 11 R76; log 30). -/
def pseudoZero (neg : Bool) (ch : UnnormalChoice) : TempReal := packReal neg (1 + ch.expo % 0x7FFE) 0

/-! ## The six basic operations -/

/-- A product with no significand bit left (spec 41 R210, 11 R75), from a nonzero exact product: a pseudo zero whose last
place is worth more than the product, with P; the checks of spec 41 R192 (6) first (log 30). -/
def deliverPseudoZero (cw : Word) (p : Nat) (neg : Bool) (x : Mag) (ch : UnnormalChoice) : Out TempReal :=
  let least := magLog x + 16447
  if magLog x < -16382 then deliverUnderflow cw p neg x
  else if 0x7FFE < least then deliverOverflow cw neg x (packReal neg 0x7FFE 0)
  else .after flagP (packReal neg (least.toNat + ch.expo % (0x7FFF - least.toNat)) 0)

/-- A true zero plus an unnormal or a masked denormal: that operand exactly, with no P (spec 11 R86), after the underflow
check of spec 41 R192 (6). A denormal of 2^-16382 or more becomes the unnormal of spec 11 R73 where there is one (log 30). -/
def unnormalUnchanged (cw : Word) (neg : Bool) (r : TempReal) (ch : UnnormalChoice) : Out TempReal :=
  if magLog (magOf r) < -16382 then deliverUnderflow cw 64 neg (magOf r)
  else if classOf r = .denormal then
    if sigOf r % 2 = 0 then .pure (packReal neg 2 (sigOf r / 2)) else deliverUnnormal cw 64 neg (magOf r) ch
  else .pure (withSign neg r)

/-- A nonzero exact sum of class normal with an unnormal operand: its bits are UNNORMAL_ARITH's as well (spec 11 R75, 41 R192
(6)). The choice gives the low bits dropped and the neighbour taken; then the checks of spec 41 R193 (log 30). -/
def deliverNormal (cw : Word) (p : Nat) (neg : Bool) (x : Mag) (ch : UnnormalChoice) : Out TempReal :=
  let l := magLog x
  let bits := 64 - ch.drop % 64
  let q := scaled x (l - bits + 1)
  let inexact := decide (q.1 % q.2 ≠ 0)
  let count := if ch.up && inexact then q.1 / q.2 + 1 else q.1 / q.2
  let l' := if count = 1 <<< bits then l + 1 else l
  if l < -16382 then deliverUnderflow cw p neg x
  else if 16384 ≤ l' then deliverOverflow cw neg x (largestOf neg)
  else .after (flagPIf inexact) (packNormal neg bits l count)

/-- A sum with an unnormal operand (spec 41 R194, 11 R74): the operand of larger magnitude decides whether the
result is normal; the choice does when they are equal and one is normal. A nonzero operand cancelled exactly leaves a true zero (spec 11
R86); pseudo zeros leave a zero with an open exponent field (log 30). -/
def addUnnormal (cw : Word) (l : TempReal) (sr : Bool) (r : TempReal) (ch : UnnormalChoice) : Out TempReal :=
  let x := addSigned (signOf l) (magOf l) sr (magOf r)
  if magZero x.2 then
    .pure (packReal (zeroSumSign cw (signOf l) sr) (if magZero (magOf l) then ch.expo % 0x7FFF else 0) 0)
  else
    let normal :=
      if magLt (magOf l) (magOf r) then decide (kindOf r = .normal)
      else if magLt (magOf r) (magOf l) then decide (kindOf l = .normal)
      else ch.normal && (decide (kindOf l = .normal) || decide (kindOf r = .normal))
    if normal then deliverNormal cw (precision cw) x.1 x.2 ch else deliverUnnormal cw (precision cw) x.1 x.2 ch

/-- Addition of l and of r with its sign taken as `sr` (spec 41 R194). -/
def addValues (cw : Word) (l : TempReal) (sr : Bool) (r : TempReal) (ch : UnnormalChoice) : Out TempReal :=
  match kindOf l, kindOf r with
  | .infinity, .infinity =>
    if affine cw && signOf l == sr then .pure (infinityOf sr) else signalBefore cw flagI indefinite
  | .infinity, _ => .pure (infinityOf (signOf l))
  | _, .infinity => .pure (infinityOf sr)
  | .zero, .zero => .pure (zeroOf (zeroSumSign cw (signOf l) sr))
  | .zero, .normal => .pure (withSign sr r)
  | .normal, .zero => .pure l
  | .zero, .unnormal => unnormalUnchanged cw sr r ch
  | .unnormal, .zero => unnormalUnchanged cw (signOf l) l ch
  | .normal, .normal =>
    let x := addSigned (signOf l) (magOf l) sr (magOf r)
    if magZero x.2 then .pure (zeroOf (zeroSumSign cw (signOf l) sr)) else deliver cw (precision cw) x.1 x.2
  | _, _ => addUnnormal cw l sr r ch

/-- The leading zeros of the significand of an unnormal operand (a denormal's integer bit counts as a zero, spec 11 R73). -/
def leadingZeros (r : TempReal) : Nat := max 1 (63 - (sigOf r).log2)

/-- Multiplication (spec 41 R210); with an unnormal operand the result is unnormal, without a significand bit when two have
more than 64 leading zeros together (spec 11 R74, R75). -/
def mulValues (cw : Word) (l r : TempReal) (ch : UnnormalChoice) : Out TempReal :=
  let s := signOf l != signOf r
  let x := mulMag (magOf l) (magOf r)
  match kindOf l, kindOf r with
  | .infinity, .zero => signalBefore cw flagI indefinite
  | .zero, .infinity => signalBefore cw flagI indefinite
  | .infinity, _ => .pure (infinityOf s)
  | _, .infinity => .pure (infinityOf s)
  | .zero, _ => .pure (zeroOf s)
  | _, .zero => .pure (zeroOf s)
  | .normal, .normal => deliver cw (precision cw) s x
  | .unnormal, .unnormal =>
    if 64 < leadingZeros l + leadingZeros r then deliverPseudoZero cw (precision cw) s x ch
    else deliverUnnormal cw (precision cw) s x ch
  | .pseudoZero, _ => .pure (pseudoZero s ch)
  | _, .pseudoZero => .pure (pseudoZero s ch)
  | _, _ => deliverUnnormal cw (precision cw) s x ch

/-- Division of n by d (spec 41 R216): a divisor that is denormal, unnormal or a pseudo zero is invalid; a true zero is
0 / 0 or the zero divide. -/
def divValues (cw : Word) (n d : TempReal) (ch : UnnormalChoice) : Out TempReal :=
  let s := signOf n != signOf d
  match kindOf n, kindOf d with
  | _, .unnormal => signalBefore cw flagI indefinite
  | _, .pseudoZero => signalBefore cw flagI indefinite
  | .infinity, .infinity => signalBefore cw flagI indefinite
  | .infinity, _ => .pure (infinityOf s)
  | _, .infinity => .pure (zeroOf s)
  | .zero, .zero => signalBefore cw flagI indefinite
  | .pseudoZero, .zero =>
    if Config.pseudoZeroOverZeroInvalid then signalBefore cw flagI indefinite
    else signalBefore cw flagZ (infinityOf s)
  | _, .zero => signalBefore cw flagZ (infinityOf s)
  | .zero, _ => .pure (zeroOf s)
  | .pseudoZero, _ => .pure (pseudoZero s ch)
  | .normal, _ => deliver cw (precision cw) s (divMag (magOf n) (magOf d))
  | .unnormal, _ => deliverUnnormal cw (precision cw) s (divMag (magOf n) (magOf d)) ch

/-- The operation on operands that are no NaNs: left, right, and the open choice. -/
def binValues (cw : Word) (op : BinOp) (l r : TempReal) (ch : UnnormalChoice) : Out TempReal :=
  match op with
  | .add => addValues cw l (signOf r) r ch
  | .sub => addValues cw l (!signOf r) r ch
  | .mul => mulValues cw l r ch
  | .div => divValues cw l r ch

/-- Whether step 2 of spec 41 R192 signals D: a denormal operand, but not a divisor. -/
def denormalUsed (op : BinOp) (reversed : Bool) (dst src : Source) : Bool :=
  match op with
  | .div => if reversed then src.denormal else dst.denormal
  | _ => dst.denormal || src.denormal

/-- `arith` (spec 41 R192): the checks in their order, then the operation. `reversed` exchanges the two values. -/
def arith (cw : Word) (op : BinOp) (reversed : Bool) (dst src : Source) : Out TempReal :=
  (if denormalUsed op reversed dst src then signalBefore cw flagD () else .pure ()).andThen fun _ =>
    match pickNan dst.value src.value with
    | some nan => signalBefore cw flagI nan
    | none =>
      let ch := Config.unnormalArith op reversed dst.value src.value cw
      if reversed then binValues cw op src.value dst.value ch else binValues cw op dst.value src.value ch

/-! ## The other operations -/

/-- FSQRT (spec 41 R227). -/
def sqrtValue (cw : Word) (v : TempReal) : Out TempReal :=
  match classOf v with
  | .zero => .pure v
  | .nan => signalBefore cw flagI v
  | .denormal => (signalBefore cw flagD ()).andThen fun _ => signalBefore cw flagI indefinite
  | .infinity =>
    if affine cw && !signOf v then .pure v else signalBefore cw flagI indefinite
  | .normal =>
    if signOf v then signalBefore cw flagI indefinite
    else deliver cw (precision cw) false (sqrtMag (sigOf v) (magOf v).exp)
  | _ => signalBefore cw flagI indefinite

/-- The finite masked response when FSCALE overflows on an unnormal, pseudo zero or denormal (spec 11 R81): the largest
exponent with the operand's own significand; of a denormal with integer bit 1 it is open whether that or the largest
finite number (log 34, DESIGN CHOICE). -/
def scaleLargest (v : TempReal) (n : Int) : TempReal :=
  if v.getLsbD 63 && Config.scaledDenormalNormal v n then largestOf (signOf v) else packReal (signOf v) 0x7FFE (sigOf v)

/-- An unnormal, pseudo zero or denormal scaled by 2^n: the significand is kept (spec 41 R228; log 34). -/
def scaleKept (cw : Word) (v : TempReal) (n : Int) : Out TempReal :=
  let x : Mag := { num := sigOf v, den := 1, exp := (magOf v).exp + n }
  let field : Int := (magOf v).exp + n + 16446
  if (if sigOf v = 0 then decide (field < 1) else decide (magLog x < -16382)) then
    deliverUnderflow cw 64 (signOf v) x
  else if 0x7FFE < field then deliverOverflow cw (signOf v) x (scaleLargest v n)
  else .pure (packReal (signOf v) field.toNat (sigOf v))

/-- Whether a scale factor is one FSCALE accepts: 0, or of magnitude 1 or more in -2^15 ≤ s < 2^15 (spec 41 R228). -/
def scaleInRange (s : TempReal) : Bool :=
  let q := scaled (magOf s) 0
  let t := q.1 / q.2
  (decide (sigOf s = 0) || decide (1 ≤ t)) &&
    (if signOf s then decide (t < 32768) || (decide (t = 32768) && decide (q.1 % q.2 = 0)) else decide (t < 32768))

/-- A finite value chopped toward zero (spec 41 R228). -/
def chopped (s : TempReal) : Int :=
  let q := scaled (magOf s) 0
  if signOf s then -((q.1 / q.2 : Nat) : Int) else ((q.1 / q.2 : Nat) : Int)

/-- FSCALE of a by s, both registers nonempty (spec 41 R228). -/
def scaleValue (cw : Word) (draw : Nat) (a s : TempReal) : Out TempReal :=
  match pickNan a s with
  | some nan => signalBefore cw flagI nan
  | none =>
    match kindOf a, kindOf s with
    | .infinity, .infinity => signalBefore cw flagI indefinite
    | .infinity, _ => .pure a
    | .zero, _ => .pure a
    | _, .infinity => signalBefore cw flagI indefinite
    | k, _ =>
      if scaleInRange s then
        if k = .normal then
          deliver cw 64 (signOf a) { num := sigOf a, den := 1, exp := (magOf a).exp + chopped s }
        else scaleKept cw a (chopped s)
      else .pure (Config.freeReg draw)

/-- How an FPREM ended (spec 41 R231, R232): with its whole quotient, incomplete, or with a masked invalid operation. -/
inductive PremEnd where
  | complete (quotient : Nat)
  | incomplete
  | invalid
deriving DecidableEq, Repr

/-- A remainder on its way to ST: exact, so only an underflow can be signalled (spec 41 R232). -/
def deliverRemainder (cw : Word) (neg : Bool) (x : Mag) (e : PremEnd) : Out (TempReal × PremEnd) :=
  if magZero x then .pure (zeroOf neg, e) else (deliver cw 64 neg x).andThen fun v => .pure (v, e)

/-- The reduction of steps (6) of spec 41 R232: dividend and modulus finite and nonzero, the modulus normal. -/
def premReduce (cw : Word) (neg : Bool) (a b : Mag) : Out (TempReal × PremEnd) :=
  let d := magLog a - magLog b
  let n : Nat := 1 + Config.fpremStep d.toNat % 64
  let shift : Int := if d < 64 then 0 else d - n
  let e := min a.exp (b.exp + shift)
  let x := a.num <<< (a.exp - e).toNat
  let y := b.num <<< (b.exp + shift - e).toNat
  deliverRemainder cw neg { num := x % y, den := 1, exp := e } (if d < 64 then .complete (x / y) else .incomplete)

/-- FPREM of dividend a by modulus b, both registers nonempty (spec 41 R232). -/
def premValue (cw : Word) (a b : TempReal) : Out (TempReal × PremEnd) :=
  (if classOf a = .denormal then signalBefore cw flagD () else .pure ()).andThen fun _ =>
    match pickNan a b with
    | some nan => signalBefore cw flagI (nan, .invalid)
    | none =>
      match kindOf a, kindOf b with
      | _, .unnormal => signalBefore cw flagI (indefinite, .invalid)
      | _, .pseudoZero => signalBefore cw flagI (indefinite, .invalid)
      | _, .zero => signalBefore cw flagI (indefinite, .invalid)
      | .infinity, _ => signalBefore cw flagI (indefinite, .invalid)
      | _, .infinity => .pure (a, .complete 0)
      | .zero, _ => .pure (a, .complete 0)
      | .pseudoZero, _ => .pure (zeroOf (signOf a), .complete 0)
      | _, .normal => premReduce cw (signOf a) (magOf a) (magOf b)

/-- The condition code after FPREM (spec 41 R231) from the code before it: quotient bits not computed show older
bits; what is not defined keeps what `free` has. -/
def ccOfPrem (old free : BitVec 4) : PremEnd → BitVec 4
  | .complete q =>
    let q0 := q.testBit 0
    let q1 := q.testBit 1
    let q2 := q.testBit 2
    if 4 ≤ q then ccOf q1 false q0 q2
    else if 2 ≤ q then ccOf q1 false q0 (old.getLsbD 3)
    else ccOf (old.getLsbD 1) false q0 (old.getLsbD 3)
  | .incomplete => ccOf (free.getLsbD 3) true (free.getLsbD 1) (free.getLsbD 0)
  | .invalid => ccOf (free.getLsbD 3) false (free.getLsbD 1) (free.getLsbD 0)

/-- The normal temporary real of a nonzero integer of any size that 64 bits of significand hold exactly. -/
def ofBigNat (neg : Bool) (n : Nat) : TempReal :=
  packReal neg (n.log2 + 16383) (if n.log2 ≤ 63 then n <<< (63 - n.log2) else n >>> (n.log2 - 63))

/-- FRNDINT (spec 41 R229). -/
def rndintValue (cw : Word) (v : TempReal) : Out TempReal :=
  match classOf v with
  | .nan => signalBefore cw flagI v
  | .infinity => .pure v
  | .zero => .pure v
  | .pseudoZero => .pure (zeroOf (signOf v))
  | _ =>
    let r := roundAt (rounding cw) (signOf v) (magOf v) 0
    .after (flagPIf r.inexact) (if r.count = 0 then zeroOf (signOf v) else ofBigNat (signOf v) r.count)

/-- FXTRACT (spec 41 R230): the exponent as a real, and the significand. -/
def xtractValue (cw : Word) (v : TempReal) : Out (TempReal × TempReal) :=
  match classOf v with
  | .nan => signalBefore cw flagI (v, v)
  | .infinity => signalBefore cw flagI (indefinite, indefinite)
  | .zero => .pure (zeroOf (signOf v), zeroOf (signOf v))
  | .denormal => .pure (ofInt (-16382), packReal (signOf v) 0x3FFF (sigOf v))
  | _ => .pure (ofInt ((expField v : Int) - 16383), packReal (signOf v) 0x3FFF (sigOf v))

/-! ## Comparison -/

/-- The order of two finite values (spec 42 R252 (5)): zeros of either sign and pseudo zeros are one value. -/
def orderFinite (a b : TempReal) : Order :=
  if magZero (magOf a) && magZero (magOf b) then .equal
  else if magZero (magOf a) then if signOf b then .greater else .less
  else if magZero (magOf b) then if signOf a then .less else .greater
  else if signOf a && !signOf b then .less
  else if !signOf a && signOf b then .greater
  else if magLt (magOf a) (magOf b) then if signOf a then .greater else .less
  else if magLt (magOf b) (magOf a) then if signOf a then .less else .greater
  else .equal

/-- Whether an operand makes a comparison signal D: a denormal, or an unnormal other than a pseudo zero (spec 42 R252 (4)). -/
def comparesDenormal (a : TempReal) : Bool := decide (classOf a = .denormal) || decide (classOf a = .unnormal)

/-- `compare` on operands that are there (spec 42 R252, in the order (4), (2), (3), (5)). -/
def compareValues (cw : Word) (a b : TempReal) : Out Order :=
  (if comparesDenormal a || comparesDenormal b then signalBefore cw flagD () else .pure ()).andThen fun _ =>
    if classOf a = .nan ∨ classOf b = .nan then signalBefore cw flagI .unordered
    else
      match decide (classOf a = .infinity), decide (classOf b = .infinity) with
      | false, false => .pure (orderFinite a b)
      | true, true =>
        if affine cw = false ∨ signOf a = signOf b then .pure .equal
        else .pure (if signOf a then .less else .greater)
      | true, false =>
        if affine cw then .pure (if signOf a then .less else .greater) else signalBefore cw flagI .unordered
      | false, true =>
        if affine cw then .pure (if signOf b then .greater else .less) else signalBefore cw flagI .unordered

end Sys2Proof.Machine
end

