-- ==== Sys2Proof/Machine/Memory.lean ====
section
/-! DEFINITION. Memory as a list of bytes in one canonical form, read and written a byte at a time. -/

namespace Sys2Proof.Machine

/-- What an address that is not listed reads as. The spec gives memory no contents after power-up: DESIGN CHOICE,
unsafe, log 6. -/
def Memory.unlisted : Byte := 0

/-- The byte at an address of a list of cells. -/
def readCells : List Host.Cell → Nat → Byte
  | [], _ => Memory.unlisted
  | (b, v) :: rest, a => if a = b then v else readCells rest a

/-- The cell of an address put in front, unless it holds what an unlisted address reads as. -/
def consCell (a : Nat) (v : Byte) (rest : List Host.Cell) : List Host.Cell :=
  if v = Memory.unlisted then rest else (a, v) :: rest

/-- A list of rising cells with the byte at one address replaced. -/
def writeCells : List Host.Cell → Nat → Byte → List Host.Cell
  | [], a, v => consCell a v []
  | (b, w) :: rest, a, v =>
    if a < b then consCell a v ((b, w) :: rest)
    else if a = b then consCell a v rest
    else (b, w) :: writeCells rest a v

/-- The byte at a physical address (spec 00 R14). -/
def Memory.read (m : Memory) (a : Nat) : Byte := readCells m.cells a

/-- Memory with one byte stored (spec 00 R14). -/
def Memory.write (m : Memory) (a : Nat) (v : Byte) : Memory := { cells := writeCells m.cells a v }

/-- Cells above an address: rising, none holding the unlisted byte. -/
def cellsAbove : List Host.Cell → Nat → Bool
  | [], _ => true
  | (b, w) :: rest, a => decide (a ≤ b) && (w != Memory.unlisted) && cellsAbove rest (b + 1)

/-- The canonical form: addresses strictly rising, no entry equal to what an unlisted address reads as. -/
def Memory.wf (m : Memory) : Bool := cellsAbove m.cells 0

/-- Bytes stored at physical addresses, one by one in the order given. -/
def Memory.writeAll (m : Memory) : List (Nat × Byte) → Memory
  | [] => m
  | (a, v) :: rest => (m.write a v).writeAll rest

end Sys2Proof.Machine
end

