-- ==== Sys2Proof/Machine/Ops.lean ====
section
/-! DEFINITION. The operations the meanings are written over: the register stack, memory through the segments, taking
an interrupt and returning from one, and how an ESC is started. -/

namespace Sys2Proof.Machine

/-! ## The register stack -/

/-- The physical number of ST(i) (spec 10 R22): addition modulo 8. -/
def Npx.phys (n : Npx) (i : RegNum) : RegNum := n.top + i

/-- A physical register (spec 10 R21). -/
def Npx.reg (n : Npx) (p : RegNum) : TempReal := n.regs[p.toNat]'p.isLt

/-- The tag of a physical register (spec 10 R39). -/
def Npx.tag (n : Npx) (p : RegNum) : Tag := n.tags[p.toNat]'p.isLt

/-- ST(i) (spec 10 R22). -/
def Npx.st (n : Npx) (i : RegNum) : TempReal := n.reg (n.phys i)

/-- Whether ST(i) is tagged empty (spec 00 R13). -/
def Npx.isEmpty (n : Npx) (i : RegNum) : Bool := decide (n.tag (n.phys i) = .empty)

/-- A physical register's tag replaced. -/
def Npx.setTag (n : Npx) (p : RegNum) (t : Tag) : Npx := { n with tags := n.tags.set p.toNat t p.isLt }

/-- A physical register written, and tagged by what was written (spec 10 R42). -/
def Npx.setReg (n : Npx) (p : RegNum) (v : TempReal) : Npx :=
  { n with regs := n.regs.set p.toNat v p.isLt, tags := n.tags.set p.toNat (tagOf v) p.isLt }

/-- ST(i) written and tagged. -/
def Npx.setSt (n : Npx) (i : RegNum) (v : TempReal) : Npx := n.setReg (n.phys i) v

/-- The second half of `push` (spec 00 R13, 10 R23): TOP decremented, the new ST written. -/
def Npx.pushValue (n : Npx) (v : TempReal) : Npx := { n with top := n.top - 1 }.setReg (n.top - 1) v

/-- `pop` (spec 40 R186): the top tagged empty, TOP incremented, the 80 bits kept. -/
def Npx.pop (n : Npx) : Npx := { n.setTag n.top .empty with top := n.top + 1 }

/-- As many pops as given. -/
def Npx.pops (n : Npx) : Nat → Npx
  | 0 => n
  | k + 1 => n.pop.pops k

/-- Flags set: they are sticky (spec 60 R368). -/
def Npx.raise (n : Npx) (f : Flags) : Npx := { n with flags := n.flags ||| f }

/-- The value of ST(i), or a stack underflow (spec 40 R187, 60 R352 (a)). -/
def Npx.fetch (n : Npx) (i : RegNum) : Out TempReal :=
  if n.isEmpty i then signalBefore n.cw flagI indefinite else .pure (n.st i)

/-- ST(i) as a source of arithmetic. -/
def Npx.fetchSource (n : Npx) (i : RegNum) : Out Source := (n.fetch i).andThen fun v => .pure (ofReg v)

/-- The first half of `push` (spec 40 R161): a stack overflow when the register below the top is not empty. -/
def Npx.pushSlot (n : Npx) (v : TempReal) : Out TempReal :=
  if n.isEmpty 7 then .pure v else signalBefore n.cw flagI indefinite

/-- The end of an instruction: the flags it signalled, and its effect unless an unmasked exception ended it before any
(spec 60 R370, R371). -/
def Npx.commit {α : Type} (n : Npx) (o : Out α) (effect : Npx → α → Npx) : Npx :=
  match o.value with
  | none => n.raise o.flags
  | some v => effect (n.raise o.flags) v

/-- `push` with its check (spec 40 R161). -/
def Npx.push (n : Npx) (v : TempReal) : Npx := n.commit (n.pushSlot v) Npx.pushValue

/-! ## Addresses and memory -/

/-- The physical address of an offset in a segment: 20 bits in Real-Address mode, 24 in Protected mode (spec 20 R105;
log 9). -/
def State.physical (s : State) (seg : SegReg) (off : Word) : Nat :=
  if s.cpu.protectedMode then (seg.base.toNat + off.toNat) % 0x1000000 else (seg.base.toNat + off.toNat) % 0x100000

/-- Physical addresses of n consecutive offsets, which wrap at 64K (spec 00 R14). -/
def State.addresses (s : State) (seg : SegReg) (off : Word) (n : Nat) : List Nat :=
  (List.range n).map fun k => s.physical seg (off + BitVec.ofNat 16 k)

/-- Bytes at consecutive offsets of a segment (spec 00 R14). -/
def State.readBytes (s : State) (seg : SegReg) (off : Word) (n : Nat) : List Byte :=
  (s.addresses seg off n).map s.mem.read

/-- Bytes stored at consecutive offsets of a segment (spec 00 R14). -/
def State.storeBytes (s : State) (seg : SegReg) (off : Word) (bytes : List Byte) : State :=
  { s with mem := s.mem.writeAll ((s.addresses seg off bytes.length).zip bytes) }

/-- How many of the words of an operand lie inside a segment, from the first on; none when the segment does not allow the
access (HOST_LIMIT_CHECK, spec 20 R112, 60 R394; log 12). -/
def SegReg.wordsInside (g : SegReg) (off : Word) (words : Nat) (write : Bool) : Nat :=
  if (if write then g.writable else g.readable) then min words ((g.limit.toNat + 1 - off.toNat) / 2) else 0

/-! ## Interrupts -/

/-- The four interrupts that concern the NPX (spec 60 R390). -/
inductive IntVector where
  | notAvailable | segmentOverrun | protection | npxError
deriving DecidableEq, Repr

/-- The interrupt's number (spec 60 R390). -/
def IntVector.number : IntVector → Nat
  | .notAvailable => 7
  | .segmentOverrun => 9
  | .protection => 13
  | .npxError => 16

/-- The Protected-mode gate of a vector (spec 60 R395; log 15). -/
def Platform.gate (p : Platform) : IntVector → Gate
  | .notAvailable => p.gate7
  | .segmentOverrun => p.gate9
  | .protection => p.gate13
  | .npxError => p.gate16

/-- The error code an interrupt pushes in Protected mode: its gate's, and none for interrupt 16 (spec 60 R391; log
15). -/
def Platform.errorCode (p : Platform) : IntVector → Option Word
  | .npxError => none
  | v => (p.gate v).errorCode

/-- A code segment register as Real-Address mode loads it: base selector times 16 (spec 20 R105). -/
def realSegment (sel : Word) : SegReg :=
  { sel := sel, base := sel.zeroExtend 24 <<< 4, limit := 0xFFFF, readable := true, writable := true }

/-- A word pushed on the 80286's stack (spec 60 R395). -/
def State.pushWord (s : State) (w : Word) : State :=
  let s := { s with cpu := { s.cpu with sp := s.cpu.sp - 2 } }
  s.storeBytes s.cpu.ss s.cpu.sp [lowByte w, highByte w]

/-- The word k words up the 80286's stack. -/
def State.stackWord (s : State) (k : Nat) : Word :=
  BitVec.ofNat 16 (leNat (s.readBytes s.cpu.ss (s.cpu.sp + BitVec.ofNat 16 (2 * k)) 2))

/-- The word at a physical address. -/
def State.wordAt (s : State) (a : Nat) : Word := wordOf (s.mem.read a) (s.mem.read (a + 1))

/-- IF, bit 9 of FLAGS (log 15). -/
def flagIF : Word := 0x0200

/-- FLAGS, then the return selector and offset pushed (spec 60 R395). -/
def State.pushLink (s : State) (sel off : Word) : State :=
  ((s.pushWord s.cpu.flags).pushWord sel).pushWord off

/-- Control moved to a handler, IF cleared (spec 60 R395). -/
def State.enter (s : State) (code : SegReg) (entry : Word) : State :=
  { s with cpu := { s.cpu with cs := code, ip := entry, flags := s.cpu.flags &&& ~~~flagIF } }

/-- TAKING AN INTERRUPT with a given return link (spec 60 R390 to R395): FLAGS, CS, IP pushed, IF cleared, control at the
vector: in Real-Address mode the doubleword at 4n, in Protected mode the platform's gate (log 15). The NPX is not
touched. -/
def takeInterruptFrom (v : IntVector) (sel off : Word) (s : State) : State :=
  let t := s.pushLink sel off
  if s.cpu.protectedMode then
    let g := s.platform.gate v
    let t := match s.platform.errorCode v with
      | some e => t.pushWord e
      | none => t
    t.enter g.code g.entry
  else t.enter (realSegment (t.wordAt (4 * v.number + 2))) (t.wordAt (4 * v.number))

/-- An interrupt whose return link is the instruction itself, at its first byte, prefixes included (spec 60 R391, R392,
R394). -/
def takeInterrupt (v : IntVector) (s : State) : State := takeInterruptFrom v s.cpu.cs.sel s.cpu.ip s

/-- RETURNING FROM AN INTERRUPT: the 80286's IRET as spec 60 R391 and R395 use it: IP, CS and FLAGS popped. In
Protected mode the selector must name a code segment of the platform (log 15). No instruction of the table runs it (log 16). -/
def iret (s : State) : Outcome :=
  let ip := s.stackWord 0
  let sel := s.stackWord 1
  let flags := s.stackWord 2
  let back (code : SegReg) : Outcome :=
    .next { s with cpu := { s.cpu with ip := ip, cs := code, flags := flags, sp := s.cpu.sp + 6 } }
  if s.cpu.protectedMode then
    match s.platform.codeSegments.find? fun g => g.sel == sel with
    | some g => back g
    | none => .fault (.noCodeSegment sel)
  else back (realSegment sel)

/-! ## Starting an ESC -/

/-- The ERROR line as the CPU sees it (spec 10 R29, R50). -/
def State.error (s : State) : Bool := errorActive s.platform s.npx

/-- IP past an instruction (spec 10 R51), modulo 2^16. -/
def State.advance (s : State) (i : Instr) : State :=
  { s with cpu := { s.cpu with ip := s.cpu.ip + BitVec.ofNat 16 i.length } }

/-- The free value numbers used up by one ESC (log 7). -/
def State.drawn (s : State) : State := { s with draws := s.draws + 1 }

/-- What the CPU does with every ESC before the NPX gets it (spec 60 R391, R392, 70 R426, R441; log 13, 18, 19):
MP with EM is refused; EM or TS is interrupt 7; with no NPX `absent`; an image not yet waited for is refused; and,
where the form checks them, BUSY is waited for (the step leaves the state as it is) and ERROR is interrupt 16. -/
def startEsc (checks : Bool) (absent run : State → Outcome) (s : State) : Outcome :=
  if s.cpu.mp && s.cpu.em then .refused .mpAndEmSet
  else if s.cpu.em || s.cpu.ts then .next (takeInterrupt .notAvailable s)
  else if !s.platform.npxPresent then absent s
  else if s.npx.imagePending then .refused .escBeforeWait
  else if checks && s.npx.busy then .next s
  else if checks && s.error then .next (takeInterrupt .npxError s)
  else run s

/-- An ESC that finds no NPX and stores nothing: no effect (spec 70 R426). -/
def skipEsc (i : Instr) (s : State) : Outcome := .next (s.advance i)

/-- The segment register of an instruction's memory operand (spec 30 R141, R143). -/
def State.operandSegment (s : State) (i : Instr) (m : MemArg) : SegReg := s.cpu.seg (operandSeg i.overrides m)

/-- The offset of an instruction's memory operand (spec 30 R139). -/
def State.operandOffset (s : State) (m : MemArg) : Word := Machine.operandOffset s.cpu m

/-- The CPU's check of a memory operand before any word moves (spec 60 R394): interrupt 13 when the first word lies
outside; else the number of its words inside goes on. -/
def checkOperand (i : Instr) (m : MemArg) (words : Nat) (write : Bool) (run : Nat → State → Outcome) (s : State) :
    Outcome :=
  let inside := (s.operandSegment i m).wordsInside (s.operandOffset m) words write
  if inside = 0 then .next (takeInterrupt .protection s) else run inside s

/-- The bytes of an instruction's memory operand. -/
def State.operandBytes (s : State) (i : Instr) (m : MemArg) (n : Nat) : List Byte :=
  s.readBytes (s.operandSegment i m) (s.operandOffset m) n

/-- Bytes stored to an instruction's memory operand. -/
def State.storeOperand (s : State) (i : Instr) (m : MemArg) (bytes : List Byte) : State :=
  s.storeBytes (s.operandSegment i m) (s.operandOffset m) bytes

/-! ## The NEU's instructions -/

/-- The NEU takes an instruction (spec 10 R26, R43 to R45, R48): the pointers and the opcode are latched, the
condition code becomes undefined until the instruction defines it. -/
def Npx.latch (n : Npx) (i : Instr) (cs ip fdpSel fdpOff : Word) (cc : BitVec 4) : Npx :=
  { n with fipSel := cs, fipOff := ip, fdpSel := fdpSel, fdpOff := fdpOff, fop := i.opcode, cc := cc }

/-- The NPX after the NEU takes an instruction without a memory operand: the data pointer is undefined (spec 10 R45). -/
def State.latched (s : State) (i : Instr) : Npx :=
  s.npx.latch i s.cpu.cs.sel s.cpu.ip (Config.freeDataSel s.draws) (Config.freeDataOff s.draws) (Config.freeCC s.draws)

/-- The NPX after the NEU takes an instruction with a memory operand (spec 10 R45). -/
def State.latchedMem (s : State) (i : Instr) (m : MemArg) : Npx :=
  s.npx.latch i s.cpu.cs.sel s.cpu.ip (s.operandSegment i m).sel (s.operandOffset m) (Config.freeCC s.draws)

/-- The end of an ESC: the new NPX, IP past the instruction. -/
def State.finish (s : State) (i : Instr) (n : Npx) : State := ({ s with npx := n }.drawn).advance i

/-- An instruction that precision control applies to refuses the reserved code (spec 10 R34, 93 U16; log 27). -/
def usingPrecision (used : Bool) (run : State → Outcome) (s : State) : Outcome :=
  if used && precisionReserved s.npx.cw then .refused .reservedPrecision else run s

/-- An NEU instruction without a memory operand. `pc` says whether precision control applies to it (spec 11 R82). -/
def neuRegister (pc : Bool) (i : Instr) (f : Npx → Npx) (s : State) : Outcome :=
  startEsc true (skipEsc i) (usingPrecision pc fun s => .next (s.finish i (f (s.latched i)))) s

/-- The NPX after interrupt 9, if the NEU stays busy with the instruction in flight, which has not yet changed a flag (spec
60 R393; log 14): the flags it sets and clears, and the NPX it leaves, for what FNSTSW may show (spec 70 R442; log 44). -/
def Npx.afterOverrun (n : Npx) (s : State) (i : Instr) (m : MemArg) (wordsLeft : Nat) (sets clears : Flags) (new : Npx) :
    Npx :=
  if Config.staysBusy s.draws then
    { n with
      flags := s.npx.flags
      inFlight := some { opcode := i.opcode, operandSel := (s.operandSegment i m).sel, operandOff := s.operandOffset m
                         wordsLeft := wordsLeft, sets := sets, clears := clears, oldCc := s.npx.cc, cc := new.cc
                         oldTop := s.npx.top, top := new.top } }
  else { n with inFlight := none }

/-- The NPX with no flag set: an instruction run from it sets the flags it signals. -/
def Npx.unflagged (n : Npx) : Npx := { n with flags := 0 }

/-- Bytes of any value, as an operand that ended in interrupt 9 has them (spec 20 R112, 60 R393; log 14). -/
def freeBytes (draw n : Nat) : List Byte := (List.range n).map (Config.freeByte draw)

/-- Interrupt 9, its return link undefined (spec 60 R393; log 14). -/
def takeOverrun (s : State) (n : Npx) : State :=
  takeInterruptFrom .segmentOverrun (Config.freeLinkSel s.draws) (Config.freeLinkOff s.draws)
    ({ s with npx := n }.drawn)

/-- The NPX after a load that ended in interrupt 9 (spec 60 R393): TOP and the destination, where there is one, hold any
value (log 14). -/
def Npx.loadUndefined (n : Npx) (draw : Nat) (dest : Option RegNum) : Npx :=
  let n' := match dest with
    | some k => (n.setReg (n.phys k) (Config.freeReg draw)).setTag (n.phys k) (Tag.ofCode (Config.freeTag draw))
    | none => n
  { n' with top := Config.freeTop draw }

/-- An NEU instruction that reads `words` words of memory; `dest` is the ST(k) it would write. One that ends in interrupt
9 and stays in flight would have gone on with words of any value; its flags are not set (log 14). -/
def neuLoad (pc : Bool) (i : Instr) (m : MemArg) (words : Nat) (dest : Option RegNum) (f : List Byte → Npx → Npx) (s : State) :
    Outcome :=
  startEsc true (checkOperand i m words false fun _ => skipEsc i)
    (usingPrecision pc <| checkOperand i m words false fun inside s =>
      if inside < words then
        let n := s.latchedMem i m
        let bytes := s.operandBytes i m (2 * inside) ++ freeBytes s.draws (2 * (words - inside))
        let new := f bytes n.unflagged
        .next (takeOverrun s ((n.loadUndefined s.draws dest).afterOverrun s i m (words - inside) new.flags 0 new))
      else .next (s.finish i (f (s.operandBytes i m (2 * words)) (s.latchedMem i m)))) s

/-- The store itself (spec 60 R362, R371, R393): nothing when an unmasked exception ended the instruction; all its
bytes and then the pops; or, past the segment's end, interrupt 9, with every byte of the destination and the pops
undefined (spec 20 R112). That the flags are set there although the transfer did not end, unless the NEU stays busy, is the
model's choice (log 14). -/
def commitStore (i : Instr) (m : MemArg) (words pops inside : Nat) (o : Out Nat) (s : State) : Outcome :=
  let n := (s.latchedMem i m).raise o.flags
  match o.value with
  | none => .next (s.finish i n)
  | some v =>
    if inside < words then
      let n' := if Config.overrunCompletes s.draws then n.pops pops else n
      .next (takeOverrun (s.storeOperand i m (freeBytes s.draws (2 * words)))
        (n'.afterOverrun s i m (words - inside) o.flags 0 (n.pops pops)))
    else .next ((s.storeOperand i m (leBytes (2 * words) v)).finish i (n.pops pops))

/-- An NEU instruction that stores `words` words of memory, the value computed from the NPX, and pops. -/
def neuStore (i : Instr) (m : MemArg) (words pops : Nat) (value : Npx → Out Nat) (s : State) : Outcome :=
  startEsc true (checkOperand i m words true fun _ => skipEsc i)
    (checkOperand i m words true fun inside s =>
      commitStore i m words pops inside (value (s.latchedMem i m)) s) s

end Sys2Proof.Machine
end

