-- ==== Sys2Proof/Machine/Arithmetic.lean ====
section
/-! DEFINITION. The arithmetic instructions (spec 41). -/

namespace Sys2Proof.Machine

open Sys2Proof.Config (BinOp)

/-! ## Shared effects -/

/-- An operation between ST(dst) and ST(src), its result to ST(dst), then the pops (spec 41 R191, R192). Both numbers
are resolved with the TOP in force at the start. -/
def Npx.arithReg (op : BinOp) (reversed : Bool) (dst src : RegNum) (pops : Nat) (n : Npx) : Npx :=
  n.commit ((n.fetchSource dst).andThen fun a => (n.fetchSource src).andThen fun b => arith n.cw op reversed a b)
    fun n v => (n.setSt dst v).pops pops

/-- An operation between ST and a memory operand, its result to ST (spec 41 R191, R192). -/
def Npx.arithMem (op : BinOp) (reversed : Bool) (b : Source) (n : Npx) : Npx :=
  n.commit ((n.fetchSource 0).andThen fun a => arith n.cw op reversed a b) fun n v => n.setSt 0 v

/-- An integer operand: never denormal (spec 41 R199). -/
def intSource (w : Nat) (b : List Byte) : Source := { value := ofInt (intOf w (leNat b)), denormal := false }

/-- A one-operand operation on ST (spec 41 R227, R229). -/
def Npx.onTop (f : Word → TempReal → Out TempReal) (n : Npx) : Npx :=
  n.commit ((n.fetch 0).andThen (f n.cw)) fun n v => n.setSt 0 v

/-- FABS and FCHS (spec 41 R233, R234): the sign of ST replaced by what `f` makes of it; no exception but an empty
ST, whose masked response is the real indefinite as it is. -/
def Npx.changeSign (f : Bool → Bool) (n : Npx) : Npx :=
  n.commit (if n.isEmpty 0 then signalBefore n.cw flagI indefinite
    else .pure (withSign (f (signOf (n.st 0))) (n.st 0))) fun n v => n.setSt 0 v

/-- FSCALE (spec 41 R228): either register empty is a stack underflow answered by the real indefinite. -/
def Npx.scale (draw : Nat) (n : Npx) : Npx :=
  n.commit (if n.isEmpty 0 || n.isEmpty 1 then signalBefore n.cw flagI indefinite
    else scaleValue n.cw draw (n.st 0) (n.st 1)) fun n v => n.setSt 0 v

/-- FPREM (spec 41 R231, R232), from the condition code `old` in force before it; a masked stack underflow answers the
real indefinite with C2 = 0. -/
def Npx.prem (old : BitVec 4) (n : Npx) : Npx :=
  n.commit (if n.isEmpty 0 || n.isEmpty 1 then signalBefore n.cw flagI (indefinite, PremEnd.invalid)
    else premValue n.cw (n.st 0) (n.st 1)) fun n v => { n.setSt 0 v.1 with cc := ccOfPrem old n.cc v.2 }

/-- FXTRACT (spec 41 R230): the exponent replaces ST, the significand is pushed; a masked stack fault gives two
indefinites (log 35). -/
def Npx.xtract (n : Npx) : Npx :=
  n.commit ((n.fetch 0).andThen fun v =>
      if n.isEmpty 7 then xtractValue n.cw v else signalBefore n.cw flagI (indefinite, indefinite))
    fun n v => (n.setSt 0 v.1).pushValue v.2

/-! ## The six basic operations -/

/-- FADD ST,ST(i) (spec 41 R195). -/
def execFaddStSti (p : List Seg) (i : RegNum) (s : State) : Outcome :=
  neuRegister true (.faddStSti p i) (Npx.arithReg .add false 0 i 0) s

/-- FADD ST(i),ST (spec 41 R196). -/
def execFaddStiSt (p : List Seg) (i : RegNum) (s : State) : Outcome :=
  neuRegister true (.faddStiSt p i) (Npx.arithReg .add false i 0 0) s

/-- FADDP ST(i),ST (spec 41 R197). -/
def execFaddpStiSt (p : List Seg) (i : RegNum) (s : State) : Outcome :=
  neuRegister true (.faddpStiSt p i) (Npx.arithReg .add false i 0 1) s

/-- FADD m32r (spec 41 R198). -/
def execFaddM32r (p : List Seg) (m : MemArg) (s : State) : Outcome :=
  neuLoad true (.faddM32r p m) m 2 (some 0) (fun b => Npx.arithMem .add false (loadReal shortReal (leNat b))) s

/-- FADD m64r (spec 41 R198). -/
def execFaddM64r (p : List Seg) (m : MemArg) (s : State) : Outcome :=
  neuLoad true (.faddM64r p m) m 4 (some 0) (fun b => Npx.arithMem .add false (loadReal longReal (leNat b))) s

/-- FIADD m16i (spec 41 R199). -/
def execFiaddM16i (p : List Seg) (m : MemArg) (s : State) : Outcome :=
  neuLoad true (.fiaddM16i p m) m 1 (some 0) (fun b => Npx.arithMem .add false (intSource 16 b)) s

/-- FIADD m32i (spec 41 R199). -/
def execFiaddM32i (p : List Seg) (m : MemArg) (s : State) : Outcome :=
  neuLoad true (.fiaddM32i p m) m 2 (some 0) (fun b => Npx.arithMem .add false (intSource 32 b)) s

/-- FSUB ST,ST(i) (spec 41 R200). -/
def execFsubStSti (p : List Seg) (i : RegNum) (s : State) : Outcome :=
  neuRegister true (.fsubStSti p i) (Npx.arithReg .sub false 0 i 0) s

/-- FSUB ST(i),ST (spec 41 R201). -/
def execFsubStiSt (p : List Seg) (i : RegNum) (s : State) : Outcome :=
  neuRegister true (.fsubStiSt p i) (Npx.arithReg .sub false i 0 0) s

/-- FSUBP ST(i),ST (spec 41 R202). -/
def execFsubpStiSt (p : List Seg) (i : RegNum) (s : State) : Outcome :=
  neuRegister true (.fsubpStiSt p i) (Npx.arithReg .sub false i 0 1) s

/-- FSUB m32r (spec 41 R203). -/
def execFsubM32r (p : List Seg) (m : MemArg) (s : State) : Outcome :=
  neuLoad true (.fsubM32r p m) m 2 (some 0) (fun b => Npx.arithMem .sub false (loadReal shortReal (leNat b))) s

/-- FSUB m64r (spec 41 R203). -/
def execFsubM64r (p : List Seg) (m : MemArg) (s : State) : Outcome :=
  neuLoad true (.fsubM64r p m) m 4 (some 0) (fun b => Npx.arithMem .sub false (loadReal longReal (leNat b))) s

/-- FISUB m16i (spec 41 R204). -/
def execFisubM16i (p : List Seg) (m : MemArg) (s : State) : Outcome :=
  neuLoad true (.fisubM16i p m) m 1 (some 0) (fun b => Npx.arithMem .sub false (intSource 16 b)) s

/-- FISUB m32i (spec 41 R204). -/
def execFisubM32i (p : List Seg) (m : MemArg) (s : State) : Outcome :=
  neuLoad true (.fisubM32i p m) m 2 (some 0) (fun b => Npx.arithMem .sub false (intSource 32 b)) s

/-- FSUBR ST,ST(i) (spec 41 R205). -/
def execFsubrStSti (p : List Seg) (i : RegNum) (s : State) : Outcome :=
  neuRegister true (.fsubrStSti p i) (Npx.arithReg .sub true 0 i 0) s

/-- FSUBR ST(i),ST (spec 41 R206). -/
def execFsubrStiSt (p : List Seg) (i : RegNum) (s : State) : Outcome :=
  neuRegister true (.fsubrStiSt p i) (Npx.arithReg .sub true i 0 0) s

/-- FSUBRP ST(i),ST (spec 41 R207). -/
def execFsubrpStiSt (p : List Seg) (i : RegNum) (s : State) : Outcome :=
  neuRegister true (.fsubrpStiSt p i) (Npx.arithReg .sub true i 0 1) s

/-- FSUBR m32r (spec 41 R208). -/
def execFsubrM32r (p : List Seg) (m : MemArg) (s : State) : Outcome :=
  neuLoad true (.fsubrM32r p m) m 2 (some 0) (fun b => Npx.arithMem .sub true (loadReal shortReal (leNat b))) s

/-- FSUBR m64r (spec 41 R208). -/
def execFsubrM64r (p : List Seg) (m : MemArg) (s : State) : Outcome :=
  neuLoad true (.fsubrM64r p m) m 4 (some 0) (fun b => Npx.arithMem .sub true (loadReal longReal (leNat b))) s

/-- FISUBR m16i (spec 41 R209). -/
def execFisubrM16i (p : List Seg) (m : MemArg) (s : State) : Outcome :=
  neuLoad true (.fisubrM16i p m) m 1 (some 0) (fun b => Npx.arithMem .sub true (intSource 16 b)) s

/-- FISUBR m32i (spec 41 R209). -/
def execFisubrM32i (p : List Seg) (m : MemArg) (s : State) : Outcome :=
  neuLoad true (.fisubrM32i p m) m 2 (some 0) (fun b => Npx.arithMem .sub true (intSource 32 b)) s

/-- FMUL ST,ST(i) (spec 41 R211). -/
def execFmulStSti (p : List Seg) (i : RegNum) (s : State) : Outcome :=
  neuRegister true (.fmulStSti p i) (Npx.arithReg .mul false 0 i 0) s

/-- FMUL ST(i),ST (spec 41 R212). -/
def execFmulStiSt (p : List Seg) (i : RegNum) (s : State) : Outcome :=
  neuRegister true (.fmulStiSt p i) (Npx.arithReg .mul false i 0 0) s

/-- FMULP ST(i),ST (spec 41 R213). -/
def execFmulpStiSt (p : List Seg) (i : RegNum) (s : State) : Outcome :=
  neuRegister true (.fmulpStiSt p i) (Npx.arithReg .mul false i 0 1) s

/-- FMUL m32r (spec 41 R214). -/
def execFmulM32r (p : List Seg) (m : MemArg) (s : State) : Outcome :=
  neuLoad true (.fmulM32r p m) m 2 (some 0) (fun b => Npx.arithMem .mul false (loadReal shortReal (leNat b))) s

/-- FMUL m64r (spec 41 R214). -/
def execFmulM64r (p : List Seg) (m : MemArg) (s : State) : Outcome :=
  neuLoad true (.fmulM64r p m) m 4 (some 0) (fun b => Npx.arithMem .mul false (loadReal longReal (leNat b))) s

/-- FIMUL m16i (spec 41 R215). -/
def execFimulM16i (p : List Seg) (m : MemArg) (s : State) : Outcome :=
  neuLoad true (.fimulM16i p m) m 1 (some 0) (fun b => Npx.arithMem .mul false (intSource 16 b)) s

/-- FIMUL m32i (spec 41 R215). -/
def execFimulM32i (p : List Seg) (m : MemArg) (s : State) : Outcome :=
  neuLoad true (.fimulM32i p m) m 2 (some 0) (fun b => Npx.arithMem .mul false (intSource 32 b)) s

/-- FDIV ST,ST(i) (spec 41 R217). -/
def execFdivStSti (p : List Seg) (i : RegNum) (s : State) : Outcome :=
  neuRegister true (.fdivStSti p i) (Npx.arithReg .div false 0 i 0) s

/-- FDIV ST(i),ST (spec 41 R218). -/
def execFdivStiSt (p : List Seg) (i : RegNum) (s : State) : Outcome :=
  neuRegister true (.fdivStiSt p i) (Npx.arithReg .div false i 0 0) s

/-- FDIVP ST(i),ST (spec 41 R219). -/
def execFdivpStiSt (p : List Seg) (i : RegNum) (s : State) : Outcome :=
  neuRegister true (.fdivpStiSt p i) (Npx.arithReg .div false i 0 1) s

/-- FDIV m32r (spec 41 R220). -/
def execFdivM32r (p : List Seg) (m : MemArg) (s : State) : Outcome :=
  neuLoad true (.fdivM32r p m) m 2 (some 0) (fun b => Npx.arithMem .div false (loadReal shortReal (leNat b))) s

/-- FDIV m64r (spec 41 R220). -/
def execFdivM64r (p : List Seg) (m : MemArg) (s : State) : Outcome :=
  neuLoad true (.fdivM64r p m) m 4 (some 0) (fun b => Npx.arithMem .div false (loadReal longReal (leNat b))) s

/-- FIDIV m16i (spec 41 R221). -/
def execFidivM16i (p : List Seg) (m : MemArg) (s : State) : Outcome :=
  neuLoad true (.fidivM16i p m) m 1 (some 0) (fun b => Npx.arithMem .div false (intSource 16 b)) s

/-- FIDIV m32i (spec 41 R221). -/
def execFidivM32i (p : List Seg) (m : MemArg) (s : State) : Outcome :=
  neuLoad true (.fidivM32i p m) m 2 (some 0) (fun b => Npx.arithMem .div false (intSource 32 b)) s

/-- FDIVR ST,ST(i) (spec 41 R222). -/
def execFdivrStSti (p : List Seg) (i : RegNum) (s : State) : Outcome :=
  neuRegister true (.fdivrStSti p i) (Npx.arithReg .div true 0 i 0) s

/-- FDIVR ST(i),ST (spec 41 R223). -/
def execFdivrStiSt (p : List Seg) (i : RegNum) (s : State) : Outcome :=
  neuRegister true (.fdivrStiSt p i) (Npx.arithReg .div true i 0 0) s

/-- FDIVRP ST(i),ST (spec 41 R224). -/
def execFdivrpStiSt (p : List Seg) (i : RegNum) (s : State) : Outcome :=
  neuRegister true (.fdivrpStiSt p i) (Npx.arithReg .div true i 0 1) s

/-- FDIVR m32r (spec 41 R225). -/
def execFdivrM32r (p : List Seg) (m : MemArg) (s : State) : Outcome :=
  neuLoad true (.fdivrM32r p m) m 2 (some 0) (fun b => Npx.arithMem .div true (loadReal shortReal (leNat b))) s

/-- FDIVR m64r (spec 41 R225). -/
def execFdivrM64r (p : List Seg) (m : MemArg) (s : State) : Outcome :=
  neuLoad true (.fdivrM64r p m) m 4 (some 0) (fun b => Npx.arithMem .div true (loadReal longReal (leNat b))) s

/-- FIDIVR m16i (spec 41 R226). -/
def execFidivrM16i (p : List Seg) (m : MemArg) (s : State) : Outcome :=
  neuLoad true (.fidivrM16i p m) m 1 (some 0) (fun b => Npx.arithMem .div true (intSource 16 b)) s

/-- FIDIVR m32i (spec 41 R226). -/
def execFidivrM32i (p : List Seg) (m : MemArg) (s : State) : Outcome :=
  neuLoad true (.fidivrM32i p m) m 2 (some 0) (fun b => Npx.arithMem .div true (intSource 32 b)) s

/-! ## The other operations -/

/-- FSQRT (spec 41 R227). -/
def execFsqrt (p : List Seg) (s : State) : Outcome := neuRegister true (.fsqrt p) (Npx.onTop sqrtValue) s

/-- FSCALE (spec 41 R228). -/
def execFscale (p : List Seg) (s : State) : Outcome := neuRegister false (.fscale p) (Npx.scale s.draws) s

/-- FPREM (spec 41 R232). -/
def execFprem (p : List Seg) (s : State) : Outcome := neuRegister false (.fprem p) (Npx.prem s.npx.cc) s

/-- FRNDINT (spec 41 R229). -/
def execFrndint (p : List Seg) (s : State) : Outcome := neuRegister false (.frndint p) (Npx.onTop rndintValue) s

/-- FXTRACT (spec 41 R230). -/
def execFxtract (p : List Seg) (s : State) : Outcome := neuRegister false (.fxtract p) Npx.xtract s

/-- FABS (spec 41 R233). -/
def execFabs (p : List Seg) (s : State) : Outcome := neuRegister false (.fabs p) (Npx.changeSign fun _ => false) s

/-- FCHS (spec 41 R234). -/
def execFchs (p : List Seg) (s : State) : Outcome := neuRegister false (.fchs p) (Npx.changeSign fun neg => !neg) s

end Sys2Proof.Machine
end

