-- ==== Sys2Proof/Machine/Comparison.lean ====
section
/-! DEFINITION. The comparison instructions (spec 42). -/

namespace Sys2Proof.Machine

/-! ## Shared effects -/

/-- The condition code of a comparison, then its pops (spec 42 R251); after an unmasked exception the code stays
undefined and nothing pops. -/
def Npx.compared (n : Npx) (o : Out Order) (pops : Nat) : Npx :=
  n.commit o fun n v => { n with cc := ccOfOrder v n.cc }.pops pops

/-- ST compared with ST(i) (spec 42 R252, R253). -/
def Npx.compareReg (i : RegNum) (pops : Nat) (n : Npx) : Npx :=
  n.compared ((n.fetch 0).andThen fun a => (n.fetch i).andThen fun b => compareValues n.cw a b) pops

/-- ST compared with a memory operand (spec 42 R252, R254). An empty ST against a denormal memory operand signals I and
D at once (spec 60 R366). -/
def Npx.compareMem (b : Source) (pops : Nat) (n : Npx) : Npx :=
  n.compared
    (if n.isEmpty 0 && b.denormal then
      (signalBefore n.cw (flagI ||| flagD) ()).andThen fun _ => compareValues n.cw indefinite b.value
     else (n.fetch 0).andThen fun a => compareValues n.cw a b.value) pops

/-- FXAM (spec 42 R262): the class and sign of ST, or empty; never an exception. -/
def Npx.examine (n : Npx) : Npx :=
  { n with cc := if n.isEmpty 0 then ccEmpty n.cc else ccOfClass (classOf (n.st 0)) (signOf (n.st 0)) }

/-! ## The instructions -/

/-- FCOM ST(i) (spec 42 R253). -/
def execFcomSti (p : List Seg) (i : RegNum) (s : State) : Outcome :=
  neuRegister false (.fcomSti p i) (Npx.compareReg i 0) s

/-- FCOM m32r (spec 42 R254). -/
def execFcomM32r (p : List Seg) (m : MemArg) (s : State) : Outcome :=
  neuLoad false (.fcomM32r p m) m 2 none (fun b => Npx.compareMem (loadReal shortReal (leNat b)) 0) s

/-- FCOM m64r (spec 42 R254). -/
def execFcomM64r (p : List Seg) (m : MemArg) (s : State) : Outcome :=
  neuLoad false (.fcomM64r p m) m 4 none (fun b => Npx.compareMem (loadReal longReal (leNat b)) 0) s

/-- FICOM m16i (spec 42 R258). -/
def execFicomM16i (p : List Seg) (m : MemArg) (s : State) : Outcome :=
  neuLoad false (.ficomM16i p m) m 1 none (fun b => Npx.compareMem (intSource 16 b) 0) s

/-- FICOM m32i (spec 42 R258). -/
def execFicomM32i (p : List Seg) (m : MemArg) (s : State) : Outcome :=
  neuLoad false (.ficomM32i p m) m 2 none (fun b => Npx.compareMem (intSource 32 b) 0) s

/-- FCOMP ST(i) (spec 42 R255). -/
def execFcompSti (p : List Seg) (i : RegNum) (s : State) : Outcome :=
  neuRegister false (.fcompSti p i) (Npx.compareReg i 1) s

/-- FCOMP m32r (spec 42 R256). -/
def execFcompM32r (p : List Seg) (m : MemArg) (s : State) : Outcome :=
  neuLoad false (.fcompM32r p m) m 2 none (fun b => Npx.compareMem (loadReal shortReal (leNat b)) 1) s

/-- FCOMP m64r (spec 42 R256). -/
def execFcompM64r (p : List Seg) (m : MemArg) (s : State) : Outcome :=
  neuLoad false (.fcompM64r p m) m 4 none (fun b => Npx.compareMem (loadReal longReal (leNat b)) 1) s

/-- FICOMP m16i (spec 42 R259). -/
def execFicompM16i (p : List Seg) (m : MemArg) (s : State) : Outcome :=
  neuLoad false (.ficompM16i p m) m 1 none (fun b => Npx.compareMem (intSource 16 b) 1) s

/-- FICOMP m32i (spec 42 R259). -/
def execFicompM32i (p : List Seg) (m : MemArg) (s : State) : Outcome :=
  neuLoad false (.ficompM32i p m) m 2 none (fun b => Npx.compareMem (intSource 32 b) 1) s

/-- FCOMPP (spec 42 R257). -/
def execFcompp (p : List Seg) (s : State) : Outcome := neuRegister false (.fcompp p) (Npx.compareReg 1 2) s

/-- FTST: ST compared with +0 (spec 42 R260). -/
def execFtst (p : List Seg) (s : State) : Outcome :=
  neuRegister false (.ftst p) (Npx.compareMem { value := zeroOf false, denormal := false } 0) s

/-- FXAM (spec 42 R262). -/
def execFxam (p : List Seg) (s : State) : Outcome := neuRegister false (.fxam p) Npx.examine s

end Sys2Proof.Machine
end

