-- ==== Sys2Proof/Machine/Constants.lean ====
section
/-! DEFINITION. The constant instructions (spec 44). -/

namespace Sys2Proof.Machine

/-- A constant of the parameter CONST_BITS (spec 44 R301): the truncated 64-bit significand or the next one (log 42). -/
def constReal (e m : Nat) (up : Bool) : TempReal := packReal false e (if up then m + 1 else m)

/-- +1.0 (spec 44 R303). -/
def oneReal : TempReal := packReal false 0x3FFF 0x8000000000000000
/-- pi (spec 44 R304). -/
def piReal : TempReal := constReal 0x4000 0xC90FDAA22168C234 Config.piUp
/-- The logarithm of 10 to base 2 (spec 44 R305). -/
def l2tReal : TempReal := constReal 0x4000 0xD49A784BCD1B8AFE Config.l2tUp
/-- The logarithm of e to base 2 (spec 44 R306). -/
def l2eReal : TempReal := constReal 0x3FFF 0xB8AA3B295C17F0BB Config.l2eUp
/-- The logarithm of 2 to base 10 (spec 44 R307). -/
def lg2Real : TempReal := constReal 0x3FFD 0x9A209A84FBCFF798 Config.lg2Up
/-- The logarithm of 2 to base e (spec 44 R308). -/
def ln2Real : TempReal := constReal 0x3FFE 0xB17217F7D1CF79AB Config.ln2Up

/-- FLDZ (spec 44 R302). -/
def execFldz (p : List Seg) (s : State) : Outcome := neuRegister false (.fldz p) (fun n => n.push (zeroOf false)) s

/-- FLD1 (spec 44 R303). -/
def execFld1 (p : List Seg) (s : State) : Outcome := neuRegister false (.fld1 p) (fun n => n.push oneReal) s

/-- FLDPI (spec 44 R304). -/
def execFldpi (p : List Seg) (s : State) : Outcome := neuRegister false (.fldpi p) (fun n => n.push piReal) s

/-- FLDL2T (spec 44 R305). -/
def execFldl2t (p : List Seg) (s : State) : Outcome := neuRegister false (.fldl2t p) (fun n => n.push l2tReal) s

/-- FLDL2E (spec 44 R306). -/
def execFldl2e (p : List Seg) (s : State) : Outcome := neuRegister false (.fldl2e p) (fun n => n.push l2eReal) s

/-- FLDLG2 (spec 44 R307). -/
def execFldlg2 (p : List Seg) (s : State) : Outcome := neuRegister false (.fldlg2 p) (fun n => n.push lg2Real) s

/-- FLDLN2 (spec 44 R308). -/
def execFldln2 (p : List Seg) (s : State) : Outcome := neuRegister false (.fldln2 p) (fun n => n.push ln2Real) s

end Sys2Proof.Machine
end

