-- ==== Sys2Proof/Machine/DataTransfer.lean ====
section
/-! DEFINITION. The data transfer instructions (spec 40). -/

namespace Sys2Proof.Machine

/-! ## Shared effects -/

/-- A short or long real pushed (spec 40 R164): stack overflow first, then D for a denormal, which is pushed as the
equivalent unnormal. -/
def Npx.pushSource (n : Npx) (src : Source) : Npx :=
  if n.isEmpty 7 then
    n.commit (if src.denormal then signalBefore n.cw flagD src.value else .pure src.value) Npx.pushValue
  else n.push src.value

/-- FLD ST(i) (spec 40 R163): the source is read under the old TOP. -/
def Npx.pushSt (n : Npx) (i : RegNum) : Npx := n.commit ((n.fetch i).andThen n.pushSlot) Npx.pushValue

/-- FST ST(i) and its popping form (spec 40 R170, R173). -/
def Npx.copyTop (n : Npx) (i : RegNum) (pops : Nat) : Npx := n.commit (n.fetch 0) fun n v => (n.setSt i v).pops pops

/-- The tag of ST(i) as FXCH exchanges it: a register tagged empty has become real indefinite (spec 40 R185). -/
def Npx.tagFilled (n : Npx) (i : RegNum) : Tag := if n.isEmpty i then .special else n.tag (n.phys i)

/-- FXCH (spec 40 R185): registers and tags exchanged, an empty register first made real indefinite. -/
def Npx.exchange (n : Npx) (i : RegNum) : Npx :=
  n.commit ((n.fetch 0).andThen fun a => (n.fetch i).andThen fun b => .pure (a, b)) fun n' v =>
    let n1 := (n'.setSt 0 v.2).setSt i v.1
    (n1.setTag (n.phys 0) (n.tagFilled i)).setTag (n.phys i) (n.tagFilled 0)

/-- What FST and FSTP store to a short or long real (spec 40 R171). -/
def Npx.topAsReal (f : RealFormat) (n : Npx) : Out Nat := (n.fetch 0).andThen (storeReal n.cw f)

/-- What FIST and FISTP store (spec 40 R176). -/
def Npx.topAsInt (w : Nat) (n : Npx) : Out Nat := (n.fetch 0).andThen (storeInt n.cw w)

/-- What FSTP stores to a temporary real: the 80 bits (spec 40 R175). -/
def Npx.topAsTemp (n : Npx) : Out Nat := (n.fetch 0).andThen fun v => .pure v.toNat

/-- What FBSTP stores (spec 40 R180). -/
def Npx.topAsDecimal (draw : Nat) (n : Npx) : Out Nat := (n.fetch 0).andThen (storeDecimal n.cw draw)

/-! ## The instructions -/

/-- FLD ST(i) (spec 40 R163). -/
def execFldSti (p : List Seg) (i : RegNum) (s : State) : Outcome :=
  neuRegister false (.fldSti p i) (fun n => n.pushSt i) s

/-- FLD short real (spec 40 R164). -/
def execFldM32r (p : List Seg) (m : MemArg) (s : State) : Outcome :=
  neuLoad false (.fldM32r p m) m 2 (some 7) (fun b n => n.pushSource (loadReal shortReal (leNat b))) s

/-- FLD long real (spec 40 R165). -/
def execFldM64r (p : List Seg) (m : MemArg) (s : State) : Outcome :=
  neuLoad false (.fldM64r p m) m 4 (some 7) (fun b n => n.pushSource (loadReal longReal (leNat b))) s

/-- FLD temporary real: the 80 bits, no D (spec 40 R181; log 43). -/
def execFldM80r (p : List Seg) (m : MemArg) (s : State) : Outcome :=
  neuLoad false (.fldM80r p m) m 5 (some 7) (fun b n => n.push (BitVec.ofNat 80 (leNat b))) s

/-- FILD word integer (spec 40 R182). -/
def execFildM16i (p : List Seg) (m : MemArg) (s : State) : Outcome :=
  neuLoad false (.fildM16i p m) m 1 (some 7) (fun b n => n.push (ofInt (intOf 16 (leNat b)))) s

/-- FILD short integer (spec 40 R183). -/
def execFildM32i (p : List Seg) (m : MemArg) (s : State) : Outcome :=
  neuLoad false (.fildM32i p m) m 2 (some 7) (fun b n => n.push (ofInt (intOf 32 (leNat b)))) s

/-- FILD long integer (spec 40 R184). -/
def execFildM64i (p : List Seg) (m : MemArg) (s : State) : Outcome :=
  neuLoad false (.fildM64i p m) m 4 (some 7) (fun b n => n.push (ofInt (intOf 64 (leNat b)))) s

/-- FBLD (spec 40 R178). -/
def execFbldM80d (p : List Seg) (m : MemArg) (s : State) : Outcome :=
  neuLoad false (.fbldM80d p m) m 5 (some 7) (fun b n => n.push (loadDecimal s.draws (leNat b))) s

/-- FST ST(i) (spec 40 R170). -/
def execFstSti (p : List Seg) (i : RegNum) (s : State) : Outcome :=
  neuRegister false (.fstSti p i) (fun n => n.copyTop i 0) s

/-- FSTP ST(i) (spec 40 R173). -/
def execFstpSti (p : List Seg) (i : RegNum) (s : State) : Outcome :=
  neuRegister false (.fstpSti p i) (fun n => n.copyTop i 1) s

/-- FST short real (spec 40 R171). -/
def execFstM32r (p : List Seg) (m : MemArg) (s : State) : Outcome :=
  neuStore (.fstM32r p m) m 2 0 (Npx.topAsReal shortReal) s

/-- FST long real (spec 40 R172). -/
def execFstM64r (p : List Seg) (m : MemArg) (s : State) : Outcome :=
  neuStore (.fstM64r p m) m 4 0 (Npx.topAsReal longReal) s

/-- FSTP short real (spec 40 R174). -/
def execFstpM32r (p : List Seg) (m : MemArg) (s : State) : Outcome :=
  neuStore (.fstpM32r p m) m 2 1 (Npx.topAsReal shortReal) s

/-- FSTP long real (spec 40 R174). -/
def execFstpM64r (p : List Seg) (m : MemArg) (s : State) : Outcome :=
  neuStore (.fstpM64r p m) m 4 1 (Npx.topAsReal longReal) s

/-- FSTP temporary real (spec 40 R175). -/
def execFstpM80r (p : List Seg) (m : MemArg) (s : State) : Outcome :=
  neuStore (.fstpM80r p m) m 5 1 Npx.topAsTemp s

/-- FIST word integer (spec 40 R177). -/
def execFistM16i (p : List Seg) (m : MemArg) (s : State) : Outcome :=
  neuStore (.fistM16i p m) m 1 0 (Npx.topAsInt 16) s

/-- FIST short integer (spec 40 R177). -/
def execFistM32i (p : List Seg) (m : MemArg) (s : State) : Outcome :=
  neuStore (.fistM32i p m) m 2 0 (Npx.topAsInt 32) s

/-- FISTP word integer (spec 40 R179). -/
def execFistpM16i (p : List Seg) (m : MemArg) (s : State) : Outcome :=
  neuStore (.fistpM16i p m) m 1 1 (Npx.topAsInt 16) s

/-- FISTP short integer (spec 40 R179). -/
def execFistpM32i (p : List Seg) (m : MemArg) (s : State) : Outcome :=
  neuStore (.fistpM32i p m) m 2 1 (Npx.topAsInt 32) s

/-- FISTP long integer (spec 40 R179). -/
def execFistpM64i (p : List Seg) (m : MemArg) (s : State) : Outcome :=
  neuStore (.fistpM64i p m) m 4 1 (Npx.topAsInt 64) s

/-- FBSTP (spec 40 R180). -/
def execFbstpM80d (p : List Seg) (m : MemArg) (s : State) : Outcome :=
  neuStore (.fbstpM80d p m) m 5 1 (Npx.topAsDecimal s.draws) s

/-- FXCH ST(i) (spec 40 R185). -/
def execFxchSti (p : List Seg) (i : RegNum) (s : State) : Outcome :=
  neuRegister false (.fxchSti p i) (fun n => n.exchange i) s

end Sys2Proof.Machine
end

