-- ==== Sys2Proof/Machine/ProcessorControl.lean ====
section
/-! DEFINITION. The processor control instructions and WAIT (spec 45). -/

namespace Sys2Proof.Machine

/-! ## Initialization -/

/-- The control word after an initialization: 03FFH or 03BFH, bit 6 undefined (spec 10 R37, R55; log 4). -/
def initialCw (draw : Nat) : Word := if Config.freeCwBit6 draw then 0x03FF else 0x03BF

/-- What FNINIT does to the NPX (spec 45 R319, R320): control, status and tag words initialized, the condition code
undefined, what is in flight dropped; registers, pointers and PM kept. -/
def Npx.init (n : Npx) (draw : Nat) : Npx :=
  { n with cw := initialCw draw, cc := Config.freeCC draw, top := 0, flags := 0
           tags := Vector.replicate 8 .empty, inFlight := none }

/-! ## Images -/

/-- The bytes of words, each low byte first (spec 20 R102). -/
def bytesOfWords : List Word → List Byte
  | [] => []
  | w :: rest => lowByte w :: highByte w :: bytesOfWords rest

/-- The word at index k of a list of bytes. -/
def wordOfBytes (b : List Byte) (k : Nat) : Word := wordOf (b.getD (2 * k) 0) (b.getD (2 * k + 1) 0)

/-- The 20-bit address of a pointer in Real-Address format (spec 10 R46): selector times 16 plus offset, also of a
selector latched while the CPU was in Protected mode, where the spec leaves open what the image shows: the model's
choice (log 20). -/
def pointer20 (sel off : Word) : BitVec 20 := sel.zeroExtend 20 <<< 4 + off.zeroExtend 20

/-- The seven words of the environment (spec 45 R326): the pointers in Real-Address format when PM = 0 (spec 10 R46), in
Protected format when PM = 1 (spec 10 R47). -/
def environment (pl : Platform) (n : Npx) : List Word :=
  let ip := pointer20 n.fipSel n.fipOff
  let dp := pointer20 n.fdpSel n.fdpOff
  [n.cw, statusWord pl n, tagWord n.tags] ++
    (if n.pm then [n.fipOff, n.fipSel, n.fdpOff, n.fdpSel]
     else [ip.extractLsb' 0 16, ip.extractLsb' 16 4 ++ 0#1 ++ n.fop, dp.extractLsb' 0 16, dp.extractLsb' 16 4 ++ 0#12])

/-- The registers of the state image, ST(0) first, ten bytes each (spec 45 R336). -/
def registerBytes (n : Npx) : List Byte :=
  (List.range 8).flatMap fun i => leBytes 10 (n.st (BitVec.ofNat 3 i)).toNat

/-- What FLDENV loads (spec 45 R329): bits 15, 7 and 6 of the status word are ignored, the tags taken as they are, the
pointers read in the format of the current PM; in Protected format FOP keeps its value. -/
def Npx.loadEnvironment (n : Npx) (b : List Byte) : Npx :=
  let w := wordOfBytes b
  let n' := { n with
    cw := w 0
    cc := (w 1).extractLsb' 14 1 ++ (w 1).extractLsb' 8 3
    top := (w 1).extractLsb' 11 3
    flags := (w 1).extractLsb' 0 6
    tags := tagsOfWord (w 2) }
  if n.pm then { n' with fipOff := w 3, fipSel := w 4, fdpOff := w 5, fdpSel := w 6 }
  else { n' with fipOff := w 3, fipSel := w 4 &&& 0xF000, fop := (w 4).extractLsb' 0 11
                 fdpOff := w 5, fdpSel := w 6 &&& 0xF000 }

/-- What FRSTOR loads (spec 45 R337): the environment, then the registers in stack order under the TOP just loaded. -/
def Npx.restore (n : Npx) (b : List Byte) : Npx :=
  let n' := n.loadEnvironment b
  { n' with regs := Vector.ofFn fun p : Fin 8 =>
      BitVec.ofNat 80 (leNat ((b.drop (14 + 10 * (BitVec.ofNat 3 p.val - n'.top).toNat)).take 10)) }

/-- FNSTENV's effect after its image (spec 45 R327): all masks set; the image is pending until a WAIT (spec 70 R441). -/
def Npx.maskAll (n : Npx) : Npx := { n with cw := n.cw ||| 0x003F }

/-! ## Shapes -/

/-- A control instruction without operand; `checks` is false for the no-wait forms (spec 45 R316). -/
def controlRegister (checks : Bool) (i : Instr) (f : Npx → Npx) (s : State) : Outcome :=
  startEsc checks (skipEsc i) (fun s => .next (s.finish i (f s.npx))) s

/-- A no-wait store of one word (spec 45 R323, R324); with no NPX the word is what the bus floats at (spec 70 R426). -/
def storeControl (i : Instr) (m : MemArg) (value : State → Word) (s : State) : Outcome :=
  startEsc false
    (checkOperand i m 1 true fun _ s => .next ((s.storeOperand i m (bytesOfWords [s.platform.floatingBus])).advance i))
    (checkOperand i m 1 true fun _ s =>
      .next ((s.storeOperand i m (bytesOfWords [value s])).finish i s.npx)) s

/-- A load of `words` words into the NPX's own registers (spec 45 R322, R329, R337). Past the segment's end the bytes are
undefined and interrupt 9 is taken (spec 60 R393; log 14). -/
def loadControl (i : Instr) (m : MemArg) (words : Nat) (f : Npx → List Byte → Npx) (s : State) : Outcome :=
  startEsc true (checkOperand i m words false fun _ => skipEsc i)
    (checkOperand i m words false fun inside s =>
      if inside < words then
        let n := f s.npx (freeBytes s.draws (2 * words))
        .next (takeOverrun s (n.afterOverrun s i m (words - inside) n.flags (~~~n.flags) n))
      else .next (s.finish i (f s.npx (s.operandBytes i m (2 * words))))) s

/-- A no-wait store of an image, then an effect on the NPX (spec 45 R327, R335), pending until a WAIT completes (spec
70 R441; log 19). While the NEU is busy the CPU goes on and the NPX holds the image back (spec 70 R442; log 44). Past the
segment's end interrupt 9 is taken, every byte of the destination and the effect undefined (spec 20 R112, 60 R393; log
14); that no image is pending then is the model's choice (log 19). -/
def storeImage (i : Instr) (m : MemArg) (words : Nat) (image : State → List Byte) (after : Npx → Npx) (s : State) :
    Outcome :=
  startEsc false (checkOperand i m words true fun _ => skipEsc i)
    (checkOperand i m words true fun inside s =>
      if s.npx.busy then .next (s.finish i { s.npx with imagePending := true })
      else if inside < words then
        let new := after s.npx
        let n := if Config.overrunCompletes s.draws then new else s.npx
        .next (takeOverrun (s.storeOperand i m (freeBytes s.draws (2 * words)))
          (n.afterOverrun s i m (words - inside) (new.flags &&& ~~~s.npx.flags) (s.npx.flags &&& ~~~new.flags) new))
      else .next ((s.storeOperand i m (image s)).finish i { after s.npx with imagePending := true })) s

/-! ## The instructions -/

/-- FNINIT (spec 45 R319, R320). -/
def execFninit (p : List Seg) (s : State) : Outcome :=
  controlRegister false (.fninit p) (fun n => n.init s.draws) s

/-- FSETPM (spec 45 R321). -/
def execFsetpm (p : List Seg) (s : State) : Outcome :=
  controlRegister true (.fsetpm p) (fun n => { n with pm := true }) s

/-- FLDCW (spec 45 R322). -/
def execFldcwM2 (p : List Seg) (m : MemArg) (s : State) : Outcome :=
  loadControl (.fldcwM2 p m) m 1 (fun n b => { n with cw := wordOfBytes b 0 }) s

/-- FNSTCW (spec 45 R323). -/
def execFnstcwM2 (p : List Seg) (m : MemArg) (s : State) : Outcome :=
  storeControl (.fnstcwM2 p m) m (fun s => s.npx.cw) s

/-- FNSTSW to memory (spec 45 R324). -/
def execFnstswM2 (p : List Seg) (m : MemArg) (s : State) : Outcome :=
  storeControl (.fnstswM2 p m) m (fun s => statusWordNow s.platform s.npx s.draws) s

/-- FNSTSW AX (spec 45 R328); with no NPX, AX receives what the bus floats at (spec 70 R426). -/
def execFnstswAx (p : List Seg) (s : State) : Outcome :=
  startEsc false
    (fun s => .next ({ s with cpu := { s.cpu with ax := s.platform.floatingBus } }.advance (.fnstswAx p)))
    (fun s =>
      let w := statusWordNow s.platform s.npx s.draws
      .next ({ s with cpu := { s.cpu with ax := w } }.finish (.fnstswAx p) s.npx)) s

/-- FNCLEX (spec 45 R325). -/
def execFnclex (p : List Seg) (s : State) : Outcome :=
  controlRegister false (.fnclex p) (fun n => { n with flags := 0 }) s

/-- FNSTENV (spec 45 R326, R327). -/
def execFnstenvM14 (p : List Seg) (m : MemArg) (s : State) : Outcome :=
  storeImage (.fnstenvM14 p m) m 7 (fun s => bytesOfWords (environment s.platform s.npx)) Npx.maskAll s

/-- FLDENV (spec 45 R329). -/
def execFldenvM14 (p : List Seg) (m : MemArg) (s : State) : Outcome :=
  loadControl (.fldenvM14 p m) m 7 Npx.loadEnvironment s

/-- FNSAVE (spec 45 R335, R336). -/
def execFnsaveM94 (p : List Seg) (m : MemArg) (s : State) : Outcome :=
  storeImage (.fnsaveM94 p m) m 47
    (fun s => bytesOfWords (environment s.platform s.npx) ++ registerBytes s.npx) (fun n => n.init s.draws) s

/-- FRSTOR (spec 45 R337). -/
def execFrstorM94 (p : List Seg) (m : MemArg) (s : State) : Outcome :=
  loadControl (.frstorM94 p m) m 47 Npx.restore s

/-- FINCSTP (spec 45 R338). -/
def execFincstp (p : List Seg) (s : State) : Outcome :=
  neuRegister false (.fincstp p) (fun n => { n with top := n.top + 1 }) s

/-- FDECSTP (spec 45 R339). -/
def execFdecstp (p : List Seg) (s : State) : Outcome :=
  neuRegister false (.fdecstp p) (fun n => { n with top := n.top - 1 }) s

/-- FFREE ST(i) (spec 45 R340). -/
def execFfreeSti (p : List Seg) (i : RegNum) (s : State) : Outcome :=
  neuRegister false (.ffreeSti p i) (fun n => n.setTag (n.phys i) .empty) s

/-- FNOP (spec 45 R341). -/
def execFnop (p : List Seg) (s : State) : Outcome := neuRegister false (.fnop p) (fun n => n) s

/-- FNENI: no operation on the 80287 (spec 45 R346). -/
def execFneni (p : List Seg) (s : State) : Outcome := controlRegister false (.fneni p) (fun n => n) s

/-- FNDISI: no operation on the 80287 (spec 45 R346). -/
def execFndisi (p : List Seg) (s : State) : Outcome := controlRegister false (.fndisi p) (fun n => n) s

/-- WAIT (spec 45 R345, 60 R392): interrupt 7 with MP and TS; nothing to wait for without an NPX (spec 70 R426);
interrupt 16 when ERROR is active and EM is 0; else it waits for BUSY, and then an image is complete (spec 70 R441). -/
def execFwait (p : List Seg) (s : State) : Outcome :=
  if s.cpu.mp && s.cpu.em then .refused .mpAndEmSet
  else if s.cpu.mp && s.cpu.ts then .next (takeInterrupt .notAvailable s)
  else if !s.platform.npxPresent then .next (s.advance (.fwait p))
  else if !s.cpu.em && s.error then .next (takeInterrupt .npxError s)
  else if s.npx.busy then .next s
  else .next ({ s with npx := { s.npx with imagePending := false } }.advance (.fwait p))

end Sys2Proof.Machine
end

