-- ==== Sys2Proof/Machine/Transcendental.lean ====
section
/-! DEFINITION. The transcendental instructions (spec 43): their values are the parameter TRANSC (log 41). -/

namespace Sys2Proof.Machine

open Sys2Proof.Config (SignedMag Mag)

/-! ## Shared pieces -/

/-- The signed value of a finite temporary real. -/
def signedOf (r : TempReal) : SignedMag := { neg := signOf r, mag := magOf r }

/-- A value of TRANSC on its way to a register (spec 43 R281): `deliver` at 64 bits; a zero keeps its sign. -/
def deliverValue (cw : Word) (v : SignedMag) : Out TempReal :=
  if magZero v.mag then .pure (zeroOf v.neg) else deliver cw 64 v.neg v.mag

/-- A value of TRANSC of an instruction that can signal only the flags `allowed` on operands in range (spec 60 R365): a
parameter whose delivery would signal another flag is taken as a zero there (log 41). -/
def deliverAllowed (allowed : Flags) (cw : Word) (v : SignedMag) : Out TempReal :=
  let o := deliverValue cw v
  if o.flags &&& ~~~allowed = 0 then o else .pure (zeroOf v.neg)

/-- An operand a transcendental accepts: normal, or true zero (spec 43 R281, R282). -/
def plain (r : TempReal) : Bool := decide (classOf r = .normal) || decide (classOf r = .zero)

/-- Zero of either sign, or positive. -/
def notNegative (r : TempReal) : Bool := decide (classOf r = .zero) || !signOf r

/-- pi/4 as the manual's listing has it (spec 43 R285). -/
def quarterPi : Mag := { num := 0xC90FDAA22168C235, den := 1, exp := -64 }

/-- One half (spec 43 R287). -/
def half : Mag := { num := 1, den := 1, exp := -1 }

/-- FPTAN's range, 0 ≤ x ≤ pi/4 (spec 43 R285). -/
def ptanInRange (x : TempReal) : Bool := plain x && notNegative x && !magLt quarterPi (magOf x)

/-- FPATAN's range, 0 ≤ y < x < infinity (spec 43 R286). -/
def patanInRange (y x : TempReal) : Bool :=
  plain y && notNegative y && plain x && notNegative x && magLt (magOf y) (magOf x)

/-- F2XM1's range, 0 ≤ x ≤ 0.5 (spec 43 R287). -/
def f2xm1InRange (x : TempReal) : Bool := plain x && notNegative x && !magLt half (magOf x)

/-- FYL2X's range: x positive and normal, y finite (spec 43 R288). -/
def yl2xInRange (x y : TempReal) : Bool := decide (classOf x = .normal) && !signOf x && plain y

/-- Whether a magnitude is below 1 - sqrt 2 / 2 (spec 43 R289): below 1, and 2 (1 - x)^2 > 1. -/
def belowLimit (x : Mag) : Bool :=
  let one : Mag := { num := 1, den := 1, exp := 0 }
  magLt x one && (
    let rest := (addSigned false one true x).2
    magLt one { num := 2 * (rest.num * rest.num), den := 1, exp := 2 * rest.exp })

/-- FYL2XP1's range: |x| < 1 - sqrt 2 / 2, y finite (spec 43 R289). -/
def yl2xp1InRange (x y : TempReal) : Bool := plain x && belowLimit (magOf x) && plain y

/-- The flags a transcendental with an invalid operand may set: UE and PE, undefined (spec 43 R282). -/
def transcFlags (draw : Nat) : Flags := Config.freeTranscFlags draw &&& (flagU ||| flagP)

/-- An undefined result (spec 43 R282). -/
def transcUndefined (draw : Nat) : Out TempReal := .after (transcFlags draw) (Config.freeReg draw)

/-- A two-operand transcendental: x in ST, y in ST(1); the result to ST(1), then a pop (spec 43 R283, R286). -/
def Npx.transc2 (value : TempReal → TempReal → Out TempReal) (n : Npx) : Npx :=
  n.commit (if n.isEmpty 0 || n.isEmpty 1 then signalBefore n.cw flagI indefinite
    else value (n.st 0) (n.st 1)) fun n v => (n.setSt 1 v).pop

/-- FPTAN's pair: Y and X (spec 43 R285), P alone in range (spec 60 R365). -/
def ptanValue (cw : Word) (draw : Nat) (t : TempReal) : Out (TempReal × TempReal) :=
  if ptanInRange t then
    let r := Config.ptan (signedOf t)
    (deliverAllowed flagP cw r.1).andThen fun y => (deliverAllowed flagP cw r.2).andThen fun x => .pure (y, x)
  else .after (transcFlags draw) (Config.freeReg draw, Config.freeReg2 draw)

/-- FPTAN (spec 43 R283, R285). -/
def Npx.ptan (draw : Nat) (n : Npx) : Npx :=
  n.commit (if n.isEmpty 0 || !n.isEmpty 7 then signalBefore n.cw flagI (indefinite, indefinite)
    else ptanValue n.cw draw (n.st 0)) fun n v => (n.setSt 0 v.1).pushValue v.2

/-- F2XM1's value; a zero gives itself (spec 11 R86, 43 R287); U and P alone in range (spec 60 R365). -/
def f2xm1Value (cw : Word) (draw : Nat) (x : TempReal) : Out TempReal :=
  if classOf x = .zero then .pure x
  else if f2xm1InRange x then deliverAllowed (flagU ||| flagP) cw (Config.f2xm1 (signedOf x))
  else transcUndefined draw

/-- F2XM1 (spec 43 R283, R287). -/
def Npx.f2xm1 (draw : Nat) (n : Npx) : Npx :=
  n.commit (if n.isEmpty 0 then signalBefore n.cw flagI indefinite else f2xm1Value n.cw draw (n.st 0))
    fun n v => n.setSt 0 v

/-- FPATAN's value (spec 43 R286): a zero, of open sign, for Y = 0; U and P alone in range (spec 60 R365). -/
def patanValue (cw : Word) (draw : Nat) (x y : TempReal) : Out TempReal :=
  let r := Config.patan (signedOf y) (signedOf x)
  if patanInRange y x then
    if classOf y = .zero then .pure (zeroOf r.neg) else deliverAllowed (flagU ||| flagP) cw r
  else transcUndefined draw

/-- FYL2X's value (spec 43 R288), which may overflow or underflow. -/
def yl2xValue (cw : Word) (draw : Nat) (x y : TempReal) : Out TempReal :=
  if yl2xInRange x y then deliverValue cw (Config.yl2x (signedOf x) (signedOf y)) else transcUndefined draw

/-- FYL2XP1's value (spec 43 R289): as FYL2X, `deliver` makes the underflow test (spec 43 R281, R288); a product by less
than 1 cannot overflow, so U and P alone in range (log 41). -/
def yl2xp1Value (cw : Word) (draw : Nat) (x y : TempReal) : Out TempReal :=
  if yl2xp1InRange x y then deliverAllowed (flagU ||| flagP) cw (Config.yl2xp1 (signedOf x) (signedOf y))
  else transcUndefined draw

/-! ## The instructions -/

/-- FPTAN (spec 43 R285). -/
def execFptan (p : List Seg) (s : State) : Outcome := neuRegister false (.fptan p) (Npx.ptan s.draws) s

/-- FPATAN (spec 43 R286). -/
def execFpatan (p : List Seg) (s : State) : Outcome :=
  neuRegister false (.fpatan p) (fun n => n.transc2 (patanValue n.cw s.draws)) s

/-- F2XM1 (spec 43 R287). -/
def execF2xm1 (p : List Seg) (s : State) : Outcome := neuRegister false (.f2xm1 p) (Npx.f2xm1 s.draws) s

/-- FYL2X (spec 43 R288). -/
def execFyl2x (p : List Seg) (s : State) : Outcome :=
  neuRegister false (.fyl2x p) (fun n => n.transc2 (yl2xValue n.cw s.draws)) s

/-- FYL2XP1 (spec 43 R289). -/
def execFyl2xp1 (p : List Seg) (s : State) : Outcome :=
  neuRegister false (.fyl2xp1 p) (fun n => n.transc2 (yl2xp1Value n.cw s.draws)) s

end Sys2Proof.Machine
end

