-- ==== Sys2Proof/Machine/Dispatch.lean ====
section
/-! DEFINITION. From an instruction to its meaning: one arm per constructor. -/

namespace Sys2Proof.Machine

def exec (i : Instr) (s : State) : Host.Outcome State Fault Refusal :=
  match i with
  | .faddM32r p m => Sys2Proof.Machine.execFaddM32r p m s
  | .fmulM32r p m => Sys2Proof.Machine.execFmulM32r p m s
  | .fcomM32r p m => Sys2Proof.Machine.execFcomM32r p m s
  | .fcompM32r p m => Sys2Proof.Machine.execFcompM32r p m s
  | .fsubM32r p m => Sys2Proof.Machine.execFsubM32r p m s
  | .fsubrM32r p m => Sys2Proof.Machine.execFsubrM32r p m s
  | .fdivM32r p m => Sys2Proof.Machine.execFdivM32r p m s
  | .fdivrM32r p m => Sys2Proof.Machine.execFdivrM32r p m s
  | .faddStSti p k => Sys2Proof.Machine.execFaddStSti p k s
  | .fmulStSti p k => Sys2Proof.Machine.execFmulStSti p k s
  | .fcomSti p k => Sys2Proof.Machine.execFcomSti p k s
  | .fcompSti p k => Sys2Proof.Machine.execFcompSti p k s
  | .fsubStSti p k => Sys2Proof.Machine.execFsubStSti p k s
  | .fsubrStSti p k => Sys2Proof.Machine.execFsubrStSti p k s
  | .fdivStSti p k => Sys2Proof.Machine.execFdivStSti p k s
  | .fdivrStSti p k => Sys2Proof.Machine.execFdivrStSti p k s
  | .fldM32r p m => Sys2Proof.Machine.execFldM32r p m s
  | .fstM32r p m => Sys2Proof.Machine.execFstM32r p m s
  | .fstpM32r p m => Sys2Proof.Machine.execFstpM32r p m s
  | .fldenvM14 p m => Sys2Proof.Machine.execFldenvM14 p m s
  | .fldcwM2 p m => Sys2Proof.Machine.execFldcwM2 p m s
  | .fnstenvM14 p m => Sys2Proof.Machine.execFnstenvM14 p m s
  | .fnstcwM2 p m => Sys2Proof.Machine.execFnstcwM2 p m s
  | .fldSti p k => Sys2Proof.Machine.execFldSti p k s
  | .fxchSti p k => Sys2Proof.Machine.execFxchSti p k s
  | .fnop p => Sys2Proof.Machine.execFnop p s
  | .fchs p => Sys2Proof.Machine.execFchs p s
  | .fabs p => Sys2Proof.Machine.execFabs p s
  | .ftst p => Sys2Proof.Machine.execFtst p s
  | .fxam p => Sys2Proof.Machine.execFxam p s
  | .fld1 p => Sys2Proof.Machine.execFld1 p s
  | .fldl2t p => Sys2Proof.Machine.execFldl2t p s
  | .fldl2e p => Sys2Proof.Machine.execFldl2e p s
  | .fldpi p => Sys2Proof.Machine.execFldpi p s
  | .fldlg2 p => Sys2Proof.Machine.execFldlg2 p s
  | .fldln2 p => Sys2Proof.Machine.execFldln2 p s
  | .fldz p => Sys2Proof.Machine.execFldz p s
  | .f2xm1 p => Sys2Proof.Machine.execF2xm1 p s
  | .fyl2x p => Sys2Proof.Machine.execFyl2x p s
  | .fptan p => Sys2Proof.Machine.execFptan p s
  | .fpatan p => Sys2Proof.Machine.execFpatan p s
  | .fxtract p => Sys2Proof.Machine.execFxtract p s
  | .fdecstp p => Sys2Proof.Machine.execFdecstp p s
  | .fincstp p => Sys2Proof.Machine.execFincstp p s
  | .fprem p => Sys2Proof.Machine.execFprem p s
  | .fyl2xp1 p => Sys2Proof.Machine.execFyl2xp1 p s
  | .fsqrt p => Sys2Proof.Machine.execFsqrt p s
  | .frndint p => Sys2Proof.Machine.execFrndint p s
  | .fscale p => Sys2Proof.Machine.execFscale p s
  | .fiaddM32i p m => Sys2Proof.Machine.execFiaddM32i p m s
  | .fimulM32i p m => Sys2Proof.Machine.execFimulM32i p m s
  | .ficomM32i p m => Sys2Proof.Machine.execFicomM32i p m s
  | .ficompM32i p m => Sys2Proof.Machine.execFicompM32i p m s
  | .fisubM32i p m => Sys2Proof.Machine.execFisubM32i p m s
  | .fisubrM32i p m => Sys2Proof.Machine.execFisubrM32i p m s
  | .fidivM32i p m => Sys2Proof.Machine.execFidivM32i p m s
  | .fidivrM32i p m => Sys2Proof.Machine.execFidivrM32i p m s
  | .fildM32i p m => Sys2Proof.Machine.execFildM32i p m s
  | .fistM32i p m => Sys2Proof.Machine.execFistM32i p m s
  | .fistpM32i p m => Sys2Proof.Machine.execFistpM32i p m s
  | .fldM80r p m => Sys2Proof.Machine.execFldM80r p m s
  | .fstpM80r p m => Sys2Proof.Machine.execFstpM80r p m s
  | .fneni p => Sys2Proof.Machine.execFneni p s
  | .fndisi p => Sys2Proof.Machine.execFndisi p s
  | .fnclex p => Sys2Proof.Machine.execFnclex p s
  | .fninit p => Sys2Proof.Machine.execFninit p s
  | .fsetpm p => Sys2Proof.Machine.execFsetpm p s
  | .faddM64r p m => Sys2Proof.Machine.execFaddM64r p m s
  | .fmulM64r p m => Sys2Proof.Machine.execFmulM64r p m s
  | .fcomM64r p m => Sys2Proof.Machine.execFcomM64r p m s
  | .fcompM64r p m => Sys2Proof.Machine.execFcompM64r p m s
  | .fsubM64r p m => Sys2Proof.Machine.execFsubM64r p m s
  | .fsubrM64r p m => Sys2Proof.Machine.execFsubrM64r p m s
  | .fdivM64r p m => Sys2Proof.Machine.execFdivM64r p m s
  | .fdivrM64r p m => Sys2Proof.Machine.execFdivrM64r p m s
  | .faddStiSt p k => Sys2Proof.Machine.execFaddStiSt p k s
  | .fmulStiSt p k => Sys2Proof.Machine.execFmulStiSt p k s
  | .fsubrStiSt p k => Sys2Proof.Machine.execFsubrStiSt p k s
  | .fsubStiSt p k => Sys2Proof.Machine.execFsubStiSt p k s
  | .fdivrStiSt p k => Sys2Proof.Machine.execFdivrStiSt p k s
  | .fdivStiSt p k => Sys2Proof.Machine.execFdivStiSt p k s
  | .fldM64r p m => Sys2Proof.Machine.execFldM64r p m s
  | .fstM64r p m => Sys2Proof.Machine.execFstM64r p m s
  | .fstpM64r p m => Sys2Proof.Machine.execFstpM64r p m s
  | .frstorM94 p m => Sys2Proof.Machine.execFrstorM94 p m s
  | .fnsaveM94 p m => Sys2Proof.Machine.execFnsaveM94 p m s
  | .fnstswM2 p m => Sys2Proof.Machine.execFnstswM2 p m s
  | .ffreeSti p k => Sys2Proof.Machine.execFfreeSti p k s
  | .fstSti p k => Sys2Proof.Machine.execFstSti p k s
  | .fstpSti p k => Sys2Proof.Machine.execFstpSti p k s
  | .fiaddM16i p m => Sys2Proof.Machine.execFiaddM16i p m s
  | .fimulM16i p m => Sys2Proof.Machine.execFimulM16i p m s
  | .ficomM16i p m => Sys2Proof.Machine.execFicomM16i p m s
  | .ficompM16i p m => Sys2Proof.Machine.execFicompM16i p m s
  | .fisubM16i p m => Sys2Proof.Machine.execFisubM16i p m s
  | .fisubrM16i p m => Sys2Proof.Machine.execFisubrM16i p m s
  | .fidivM16i p m => Sys2Proof.Machine.execFidivM16i p m s
  | .fidivrM16i p m => Sys2Proof.Machine.execFidivrM16i p m s
  | .faddpStiSt p k => Sys2Proof.Machine.execFaddpStiSt p k s
  | .fmulpStiSt p k => Sys2Proof.Machine.execFmulpStiSt p k s
  | .fsubrpStiSt p k => Sys2Proof.Machine.execFsubrpStiSt p k s
  | .fsubpStiSt p k => Sys2Proof.Machine.execFsubpStiSt p k s
  | .fdivrpStiSt p k => Sys2Proof.Machine.execFdivrpStiSt p k s
  | .fdivpStiSt p k => Sys2Proof.Machine.execFdivpStiSt p k s
  | .fcompp p => Sys2Proof.Machine.execFcompp p s
  | .fildM16i p m => Sys2Proof.Machine.execFildM16i p m s
  | .fistM16i p m => Sys2Proof.Machine.execFistM16i p m s
  | .fistpM16i p m => Sys2Proof.Machine.execFistpM16i p m s
  | .fbldM80d p m => Sys2Proof.Machine.execFbldM80d p m s
  | .fildM64i p m => Sys2Proof.Machine.execFildM64i p m s
  | .fbstpM80d p m => Sys2Proof.Machine.execFbstpM80d p m s
  | .fistpM64i p m => Sys2Proof.Machine.execFistpM64i p m s
  | .fnstswAx p => Sys2Proof.Machine.execFnstswAx p s
  | .fwait p => Sys2Proof.Machine.execFwait p s

end Sys2Proof.Machine
end

