-- ==== Sys2Proof/Machine/Fetch.lean ====
section
/-! DEFINITION. Fetching an instruction's bytes, and what is done with bytes that do not decode. -/

namespace Sys2Proof.Machine

/-- The bytes at CS:IP, as many as the longest instruction has; IP wraps at 64K (log 11). -/
def State.fetchWindow (s : State) : List Byte := s.readBytes s.cpu.cs s.cpu.ip maxLength

/-- Bytes stored at CS:IP. -/
def State.withFetchBytes (s : State) (bytes : List Byte) : State := s.storeBytes s.cpu.cs s.cpu.ip bytes

/-- The refusal of bytes that are no instruction of the table (spec 30 R143, R146; log 10). -/
def refusalOf : DecodeError → Refusal
  | .truncated => .tooLong
  | .unassignedEsc => .unassignedEsc
  | .lockOrRepeat => .lockOrRepeat
  | .cpuInstruction => .cpuInstruction

/-- The bytes of an ESC code, its overrides included (spec 30 R139, R143): two and the displacement that MOD and R/M
select. -/
def escLength (bytes : List Byte) : Nat :=
  let r := takeOverrides bytes
  match r.2 with
  | _ :: b2 :: rest =>
    match decodeMemArg (modField b2) (rmField b2) rest with
    | .ok (m, _) => r.1.length + 2 + m.dispBytes
    | .error _ => r.1.length + 2
  | _ => r.1.length

/-- What a step does with bytes that are no row of the table. An unassigned ESC code is an ESC to the CPU: with EM or TS it
is interrupt 7, as for any opcode D8H to DFH (spec 60 R392), and with no NPX it only passes (spec 70 R426); one that
reaches the NPX is refused (spec 30 R146, 93 U1; log 47). All other bytes are refused by name. -/
def undecoded (e : DecodeError) (s : State) : Outcome :=
  if e = .unassignedEsc then
    startEsc false
      (fun s => .next { s with cpu := { s.cpu with ip := s.cpu.ip + BitVec.ofNat 16 (escLength s.fetchWindow) } })
      (fun _ => .refused .unassignedEsc) s
  else .refused (refusalOf e)

end Sys2Proof.Machine
end

