-- ==== Sys2Proof/Machine/Host.lean ====
section
/-! DEFINITION. What the 80286 does for the NPX outside the instructions of the table: operations the spec names
without giving their encodings (log 16), and a later hardware RESET. -/

namespace Sys2Proof.Machine

/-- SAHF (spec 10 R53): AH into the low byte of FLAGS, so that C0 becomes CF, C2 PF and C3 ZF after FNSTSW AX. -/
def sahf (s : State) : State :=
  { s with cpu := { s.cpu with flags := s.cpu.flags.extractLsb' 8 8 ++ s.cpu.ax.extractLsb' 8 8 } }

/-- The carry flag (spec 10 R53). -/
def Cpu.cf (c : Cpu) : Bool := c.flags.getLsbD 0
/-- The parity flag (spec 10 R53). -/
def Cpu.pf (c : Cpu) : Bool := c.flags.getLsbD 2
/-- The zero flag (spec 10 R53). -/
def Cpu.zf (c : Cpu) : Bool := c.flags.getLsbD 6

/-- LMSW: MP, EM and TS from bits 1, 2 and 3 of a word; bit 0 can set Protected mode and not leave it (spec 10 R54;
log 16). -/
def lmsw (w : Word) (s : State) : State :=
  { s with cpu := { s.cpu with mp := w.getLsbD 1, em := w.getLsbD 2, ts := w.getLsbD 3
                               protectedMode := s.cpu.protectedMode || w.getLsbD 0 } }

/-- SMSW: the low four bits of the MSW (spec 10 R54; log 16). -/
def smsw (s : State) : BitVec 4 :=
  BitVec.ofBool s.cpu.ts ++ BitVec.ofBool s.cpu.em ++ BitVec.ofBool s.cpu.mp ++ BitVec.ofBool s.cpu.protectedMode

/-- CLTS (spec 60 R392). -/
def clts (s : State) : State := { s with cpu := { s.cpu with ts := false } }

/-- What a task switch does to the MSW (spec 10 R54). -/
def taskSwitch (s : State) : State := { s with cpu := { s.cpu with ts := true } }

/-- A hardware RESET of a running machine (spec 70 R420, R421, R423): the NPX initialized and back in Real-Address mode, its
registers and pointers not changed, the 80286 reset, memory kept. -/
def hardReset (s : State) : State :=
  { s with npx := { s.npx.init s.draws with pm := false, imagePending := false }, cpu := Cpu.reset }.drawn

end Sys2Proof.Machine
end

