-- ==== Sys2Proof/Machine/Step.lean ====
section
/-! DEFINITION. One step of the machine: the bytes at CS:IP, decoded and run. -/

namespace Sys2Proof.Machine

/-- One step: the 80286 fetches at CS:IP and runs the instruction there (spec 00 R7, 30 R157). -/
def step (s : State) : Host.Outcome State Fault Refusal :=
  match decode s.fetchWindow with
  | .ok r => exec r.1 s
  | .error e => undecoded e s

/-- The state with an instruction, numbered as the opcode table numbers it, where the next step fetches (log 8). -/
def State.withFetchWord (s : State) (nbits w : Nat) : State := s.withFetchBytes (tableBytes nbits w)

end Sys2Proof.Machine
end

