-- ==== Sys2Proof/Machine/Value.lean ====
section
/-! DEFINITION. The rational values that magnitudes and finite temporary reals denote: what statements about
arithmetic speak of. -/

namespace Sys2Proof.Machine

/-- The rational value of a magnitude. -/
def magVal (x : Config.Mag) : ℚ := (x.num : ℚ) / (x.den : ℚ) * (2 : ℚ) ^ x.exp

/-- The value of a finite temporary real (spec 11 R66). -/
def regVal (r : TempReal) : ℚ := (if signOf r then -1 else 1) * magVal (magOf r)

end Sys2Proof.Machine
end

