-- ==== Sys2Proof/Safety.lean ====
section
/-! DEFINITION. What claims about runs and instructions speak of. -/

namespace Sys2Proof.Safety

open Sys2Proof.Machine

/-! ## When an instruction executes normally -/

/-- The NPX is there, idle, with no ERROR and no image waited for, and the CPU passes ESC instructions to it: an ESC
executes normally (spec 60 R391, R392, 70 R441). -/
structure Ready (s : State) : Prop where
  present : s.platform.npxPresent = true
  noEm : s.cpu.em = false
  noTs : s.cpu.ts = false
  noImage : s.npx.imagePending = false
  idle : s.npx.busy = false
  noError : s.error = false

/-- The conditions under which a no-wait ESC executes (spec 30 R150): as `Ready`, without BUSY and ERROR. -/
structure Passed (s : State) : Prop where
  present : s.platform.npxPresent = true
  noEm : s.cpu.em = false
  noTs : s.cpu.ts = false
  noImage : s.npx.imagePending = false

/-- Every word of a memory operand lies inside its segment, with the right to access it (spec 20 R112, 60 R394). -/
def OperandFits (s : State) (i : Instr) (m : MemArg) (words : Nat) (write : Bool) : Prop :=
  (s.operandSegment i m).wordsInside (s.operandOffset m) words write = words

/-- The physical addresses of the first n bytes of an instruction's memory operand. -/
def operandAddresses (s : State) (i : Instr) (m : MemArg) (n : Nat) : List Nat :=
  s.addresses (s.operandSegment i m) (s.operandOffset m) n

/-! ## Frames -/

/-- Every byte of memory reads as before. -/
def SameMemory (s t : State) : Prop := ∀ a, t.mem.read a = s.mem.read a

/-- Every byte of memory outside the given addresses reads as before. -/
def SameMemoryOutside (s t : State) (addresses : List Nat) : Prop :=
  ∀ a, a ∉ addresses → t.mem.read a = s.mem.read a

/-- Of the 80286 only IP changes, by the instruction's length; the platform does not. -/
def OnlyIpMoves (i : Instr) (s t : State) : Prop :=
  t.cpu = { s.cpu with ip := s.cpu.ip + BitVec.ofNat 16 i.length } ∧ t.platform = s.platform

/-- Control word, mode, what is in flight and the pending image are kept. -/
structure ControlKept (s t : State) : Prop where
  cw : t.npx.cw = s.npx.cw
  pm : t.npx.pm = s.npx.pm
  inFlight : t.npx.inFlight = s.npx.inFlight
  imagePending : t.npx.imagePending = s.npx.imagePending

/-- The pointers and the opcode are kept. -/
structure PointersKept (s t : State) : Prop where
  fipSel : t.npx.fipSel = s.npx.fipSel
  fipOff : t.npx.fipOff = s.npx.fipOff
  fdpSel : t.npx.fdpSel = s.npx.fdpSel
  fdpOff : t.npx.fdpOff = s.npx.fdpOff
  fop : t.npx.fop = s.npx.fop

/-- The instruction's address and opcode are latched (spec 10 R43 to R45, R48). -/
structure InstructionLatched (i : Instr) (s t : State) : Prop where
  sel : t.npx.fipSel = s.cpu.cs.sel
  off : t.npx.fipOff = s.cpu.ip
  fop : t.npx.fop = i.opcode

/-- The operand's address is latched (spec 10 R45). -/
structure DataLatched (i : Instr) (m : MemArg) (s t : State) : Prop where
  sel : t.npx.fdpSel = (s.operandSegment i m).sel
  off : t.npx.fdpOff = s.operandOffset m

/-- What every numeric instruction that completes leaves alone, and what it latches. -/
structure NumericFrame (i : Instr) (s t : State) : Prop where
  cpu : OnlyIpMoves i s t
  control : ControlKept s t
  latched : InstructionLatched i s t
  sticky : s.npx.flags &&& t.npx.flags = s.npx.flags

/-- Registers, tags and TOP are kept. -/
structure StackKept (s t : State) : Prop where
  regs : t.npx.regs = s.npx.regs
  tags : t.npx.tags = s.npx.tags
  top : t.npx.top = s.npx.top

/-- ST(dst) holds v and is tagged by it; every other register and tag, and TOP, are kept. -/
structure Replaced (s t : State) (dst : RegNum) (v : TempReal) : Prop where
  top : t.npx.top = s.npx.top
  value : t.npx.reg (s.npx.phys dst) = v
  tag : t.npx.tag (s.npx.phys dst) = tagOf v
  others : ∀ q, q ≠ s.npx.phys dst → t.npx.reg q = s.npx.reg q ∧ t.npx.tag q = s.npx.tag q

/-- ST(dst) holds v, and the stack is popped: the old top is tagged empty, TOP is one more, ST(dst) is tagged by v unless
it is the old top, and every other register and tag is kept. -/
structure ReplacedPopped (s t : State) (dst : RegNum) (v : TempReal) : Prop where
  top : t.npx.top = s.npx.top + 1
  value : t.npx.reg (s.npx.phys dst) = v
  freed : t.npx.tag s.npx.top = .empty
  tag : dst ≠ 0 → t.npx.tag (s.npx.phys dst) = tagOf v
  otherRegs : ∀ q, q ≠ s.npx.phys dst → t.npx.reg q = s.npx.reg q
  otherTags : ∀ q, q ≠ s.npx.phys dst → q ≠ s.npx.top → t.npx.tag q = s.npx.tag q

/-- v is pushed: TOP is one less, the new ST holds v and is tagged by it, all other registers and tags are kept. -/
structure Pushed (s t : State) (v : TempReal) : Prop where
  top : t.npx.top = s.npx.top - 1
  value : t.npx.reg (s.npx.top - 1) = v
  tag : t.npx.tag (s.npx.top - 1) = tagOf v
  others : ∀ q, q ≠ s.npx.top - 1 → t.npx.reg q = s.npx.reg q ∧ t.npx.tag q = s.npx.tag q

/-- The stack is popped once and no register changes. -/
structure Popped (s t : State) : Prop where
  top : t.npx.top = s.npx.top + 1
  freed : t.npx.tag s.npx.top = .empty
  regs : t.npx.regs = s.npx.regs
  otherTags : ∀ q, q ≠ s.npx.top → t.npx.tag q = s.npx.tag q

/-! ## Tables of forms -/

/-- The register forms of the six basic operations: operation, whether reversed, destination, source, pops (spec 41 R191, 30
R134, R138, R144). -/
def arithRegForm : Instr → Option (Config.BinOp × Bool × RegNum × RegNum × Nat)
  | .faddStSti _ i => some (.add, false, 0, i, 0)
  | .faddStiSt _ i => some (.add, false, i, 0, 0)
  | .faddpStiSt _ i => some (.add, false, i, 0, 1)
  | .fsubStSti _ i => some (.sub, false, 0, i, 0)
  | .fsubStiSt _ i => some (.sub, false, i, 0, 0)
  | .fsubpStiSt _ i => some (.sub, false, i, 0, 1)
  | .fsubrStSti _ i => some (.sub, true, 0, i, 0)
  | .fsubrStiSt _ i => some (.sub, true, i, 0, 0)
  | .fsubrpStiSt _ i => some (.sub, true, i, 0, 1)
  | .fmulStSti _ i => some (.mul, false, 0, i, 0)
  | .fmulStiSt _ i => some (.mul, false, i, 0, 0)
  | .fmulpStiSt _ i => some (.mul, false, i, 0, 1)
  | .fdivStSti _ i => some (.div, false, 0, i, 0)
  | .fdivStiSt _ i => some (.div, false, i, 0, 0)
  | .fdivpStiSt _ i => some (.div, false, i, 0, 1)
  | .fdivrStSti _ i => some (.div, true, 0, i, 0)
  | .fdivrStiSt _ i => some (.div, true, i, 0, 0)
  | .fdivrpStiSt _ i => some (.div, true, i, 0, 1)
  | _ => none

/-- The memory types an arithmetic or comparison instruction takes (spec 30 R153). -/
inductive MemType where
  | short | long | word | int
deriving DecidableEq, Repr

/-- The words of a memory type (spec 20 R104). -/
def MemType.words : MemType → Nat
  | .short => 2
  | .long => 4
  | .word => 1
  | .int => 2

/-- The source operand that bytes of a memory type give (spec 11 R69, R70). -/
def MemType.source : MemType → List Byte → Source
  | .short, b => loadReal shortReal (leNat b)
  | .long, b => loadReal longReal (leNat b)
  | .word, b => { value := ofInt (intOf 16 (leNat b)), denormal := false }
  | .int, b => { value := ofInt (intOf 32 (leNat b)), denormal := false }

/-- The memory forms of the six basic operations: operation, whether reversed, operand, type (spec 41 R191). -/
def arithMemForm : Instr → Option (Config.BinOp × Bool × MemArg × MemType)
  | .faddM32r _ m => some (.add, false, m, .short)
  | .faddM64r _ m => some (.add, false, m, .long)
  | .fiaddM16i _ m => some (.add, false, m, .word)
  | .fiaddM32i _ m => some (.add, false, m, .int)
  | .fsubM32r _ m => some (.sub, false, m, .short)
  | .fsubM64r _ m => some (.sub, false, m, .long)
  | .fisubM16i _ m => some (.sub, false, m, .word)
  | .fisubM32i _ m => some (.sub, false, m, .int)
  | .fsubrM32r _ m => some (.sub, true, m, .short)
  | .fsubrM64r _ m => some (.sub, true, m, .long)
  | .fisubrM16i _ m => some (.sub, true, m, .word)
  | .fisubrM32i _ m => some (.sub, true, m, .int)
  | .fmulM32r _ m => some (.mul, false, m, .short)
  | .fmulM64r _ m => some (.mul, false, m, .long)
  | .fimulM16i _ m => some (.mul, false, m, .word)
  | .fimulM32i _ m => some (.mul, false, m, .int)
  | .fdivM32r _ m => some (.div, false, m, .short)
  | .fdivM64r _ m => some (.div, false, m, .long)
  | .fidivM16i _ m => some (.div, false, m, .word)
  | .fidivM32i _ m => some (.div, false, m, .int)
  | .fdivrM32r _ m => some (.div, true, m, .short)
  | .fdivrM64r _ m => some (.div, true, m, .long)
  | .fidivrM16i _ m => some (.div, true, m, .word)
  | .fidivrM32i _ m => some (.div, true, m, .int)
  | _ => none

/-- The comparisons with a memory operand: operand, type, pops (spec 42 R254, R256, R258, R259). -/
def compareMemForm : Instr → Option (MemArg × MemType × Nat)
  | .fcomM32r _ m => some (m, .short, 0)
  | .fcomM64r _ m => some (m, .long, 0)
  | .ficomM16i _ m => some (m, .word, 0)
  | .ficomM32i _ m => some (m, .int, 0)
  | .fcompM32r _ m => some (m, .short, 1)
  | .fcompM64r _ m => some (m, .long, 1)
  | .ficompM16i _ m => some (m, .word, 1)
  | .ficompM32i _ m => some (m, .int, 1)
  | _ => none

/-- The comparisons with a register: its number, pops (spec 42 R253, R255, R257). -/
def compareRegForm : Instr → Option (RegNum × Nat)
  | .fcomSti _ i => some (i, 0)
  | .fcompSti _ i => some (i, 1)
  | .fcompp _ => some (1, 2)
  | _ => none

/-- The ESC instructions that test neither BUSY nor ERROR (spec 30 R150, 45 R347). -/
def noWait : Instr → Bool
  | .fneni _ => true
  | .fndisi _ => true
  | .fnclex _ => true
  | .fninit _ => true
  | .fnstenvM14 _ _ => true
  | .fnstcwM2 _ _ => true
  | .fnsaveM94 _ _ => true
  | .fnstswM2 _ _ => true
  | .fnstswAx _ => true
  | _ => false

/-- WAIT, the one instruction of the table that is no ESC (spec 30 R151). -/
def isWait : Instr → Bool
  | .fwait _ => true
  | _ => false

/-- The 16-bit words a memory instruction moves, and whether it stores them (spec 20 R104). -/
def transfer : Instr → Option (Nat × Bool)
  | .faddM32r _ _ => some (2, false)
  | .fmulM32r _ _ => some (2, false)
  | .fcomM32r _ _ => some (2, false)
  | .fcompM32r _ _ => some (2, false)
  | .fsubM32r _ _ => some (2, false)
  | .fsubrM32r _ _ => some (2, false)
  | .fdivM32r _ _ => some (2, false)
  | .fdivrM32r _ _ => some (2, false)
  | .fldM32r _ _ => some (2, false)
  | .fstM32r _ _ => some (2, true)
  | .fstpM32r _ _ => some (2, true)
  | .fldenvM14 _ _ => some (7, false)
  | .fldcwM2 _ _ => some (1, false)
  | .fnstenvM14 _ _ => some (7, true)
  | .fnstcwM2 _ _ => some (1, true)
  | .fiaddM32i _ _ => some (2, false)
  | .fimulM32i _ _ => some (2, false)
  | .ficomM32i _ _ => some (2, false)
  | .ficompM32i _ _ => some (2, false)
  | .fisubM32i _ _ => some (2, false)
  | .fisubrM32i _ _ => some (2, false)
  | .fidivM32i _ _ => some (2, false)
  | .fidivrM32i _ _ => some (2, false)
  | .fildM32i _ _ => some (2, false)
  | .fistM32i _ _ => some (2, true)
  | .fistpM32i _ _ => some (2, true)
  | .fldM80r _ _ => some (5, false)
  | .fstpM80r _ _ => some (5, true)
  | .faddM64r _ _ => some (4, false)
  | .fmulM64r _ _ => some (4, false)
  | .fcomM64r _ _ => some (4, false)
  | .fcompM64r _ _ => some (4, false)
  | .fsubM64r _ _ => some (4, false)
  | .fsubrM64r _ _ => some (4, false)
  | .fdivM64r _ _ => some (4, false)
  | .fdivrM64r _ _ => some (4, false)
  | .fldM64r _ _ => some (4, false)
  | .fstM64r _ _ => some (4, true)
  | .fstpM64r _ _ => some (4, true)
  | .frstorM94 _ _ => some (47, false)
  | .fnsaveM94 _ _ => some (47, true)
  | .fnstswM2 _ _ => some (1, true)
  | .fiaddM16i _ _ => some (1, false)
  | .fimulM16i _ _ => some (1, false)
  | .ficomM16i _ _ => some (1, false)
  | .ficompM16i _ _ => some (1, false)
  | .fisubM16i _ _ => some (1, false)
  | .fisubrM16i _ _ => some (1, false)
  | .fidivM16i _ _ => some (1, false)
  | .fidivrM16i _ _ => some (1, false)
  | .fildM16i _ _ => some (1, false)
  | .fistM16i _ _ => some (1, true)
  | .fistpM16i _ _ => some (1, true)
  | .fbldM80d _ _ => some (5, false)
  | .fildM64i _ _ => some (4, false)
  | .fbstpM80d _ _ => some (5, true)
  | .fistpM64i _ _ => some (4, true)
  | _ => none

/-- The instructions precision control applies to (spec 11 R82). -/
def usesPrecision (i : Instr) : Bool :=
  (arithRegForm i).isSome || (arithMemForm i).isSome || (match i with
    | .fsqrt _ => true
    | _ => false)

/-! ## More tables of forms -/

/-- The memory operand reads as these bytes. -/
def Stored (t : State) (addresses : List Nat) (bytes : List Byte) : Prop := addresses.map t.mem.read = bytes

/-- The constant instructions and what they push (spec 44 R302 to R308). -/
def constForm : Instr → Option TempReal
  | .fldz _ => some (zeroOf false)
  | .fld1 _ => some oneReal
  | .fldpi _ => some piReal
  | .fldl2t _ => some l2tReal
  | .fldl2e _ => some l2eReal
  | .fldlg2 _ => some lg2Real
  | .fldln2 _ => some ln2Real
  | _ => none

/-- The loads that push without looking at the operand's class: operand, words, and the value the operand's number gives
(spec 40 R178, R181 to R184). -/
def loadForm : Instr → Option (MemArg × Nat × (Nat → Nat → TempReal))
  | .fldM80r _ m => some (m, 5, fun _ v => BitVec.ofNat 80 v)
  | .fildM16i _ m => some (m, 1, fun _ v => ofInt (intOf 16 v))
  | .fildM32i _ m => some (m, 2, fun _ v => ofInt (intOf 32 v))
  | .fildM64i _ m => some (m, 4, fun _ v => ofInt (intOf 64 v))
  | .fbldM80d _ m => some (m, 5, fun draw v => loadDecimal draw v)
  | _ => none

/-- The loads of a short or long real: operand, words, format (spec 40 R164, R165). -/
def realLoadForm : Instr → Option (MemArg × Nat × RealFormat)
  | .fldM32r _ m => some (m, 2, shortReal)
  | .fldM64r _ m => some (m, 4, longReal)
  | _ => none

/-- The stores to memory: operand, words, pops, and the number stored for a control word and a value (spec 40 R171 to
R180). -/
def storeForm : Instr → Option (MemArg × Nat × Nat × (Nat → Word → TempReal → Out Nat))
  | .fstM32r _ m => some (m, 2, 0, fun _ cw v => storeReal cw shortReal v)
  | .fstM64r _ m => some (m, 4, 0, fun _ cw v => storeReal cw longReal v)
  | .fstpM32r _ m => some (m, 2, 1, fun _ cw v => storeReal cw shortReal v)
  | .fstpM64r _ m => some (m, 4, 1, fun _ cw v => storeReal cw longReal v)
  | .fstpM80r _ m => some (m, 5, 1, fun _ _ v => .pure v.toNat)
  | .fistM16i _ m => some (m, 1, 0, fun _ cw v => storeInt cw 16 v)
  | .fistM32i _ m => some (m, 2, 0, fun _ cw v => storeInt cw 32 v)
  | .fistpM16i _ m => some (m, 1, 1, fun _ cw v => storeInt cw 16 v)
  | .fistpM32i _ m => some (m, 2, 1, fun _ cw v => storeInt cw 32 v)
  | .fistpM64i _ m => some (m, 4, 1, fun _ cw v => storeInt cw 64 v)
  | .fbstpM80d _ m => some (m, 5, 1, fun draw cw v => storeDecimal cw draw v)
  | _ => none

/-- The operations that replace ST by a function of ST (spec 41 R227, R229, R233, R234, 43 R287): from a draw, a control
word and ST's value. -/
def unaryForm : Instr → Option (Nat → Word → TempReal → Out TempReal)
  | .fsqrt _ => some fun _ cw v => sqrtValue cw v
  | .frndint _ => some fun _ cw v => rndintValue cw v
  | .f2xm1 _ => some fun draw cw v => f2xm1Value cw draw v
  | _ => none

/-- The transcendentals of two operands: the value to ST(1), from a draw, a control word, ST and ST(1) (spec 43 R286, R288,
R289). -/
def transc2Form : Instr → Option (Nat → Word → TempReal → TempReal → Out TempReal)
  | .fpatan _ => some fun draw cw x y => patanValue cw draw x y
  | .fyl2x _ => some fun draw cw x y => yl2xValue cw draw x y
  | .fyl2xp1 _ => some fun draw cw x y => yl2xp1Value cw draw x y
  | _ => none

/-- The second bytes that no instruction has, after a first byte D8H to DFH (spec 30 R146). -/
def unassigned (b1 b2 : Byte) : Bool :=
  let ext := (extField b2).toNat
  let memory := modField b2 != 3
  let v := b2.toNat
  match b1.toNat with
  | 0xD9 => if memory then ext == 1 else (decide (0xD1 ≤ v) && decide (v ≤ 0xDF)) ||
      [0xE2, 0xE3, 0xE6, 0xE7, 0xEF, 0xF5, 0xFB, 0xFE, 0xFF].contains v
  | 0xDA => !memory
  | 0xDB => if memory then [1, 4, 6].contains ext else decide (v ≤ 0xDF) || decide (0xE5 ≤ v)
  | 0xDC => !memory && decide (0xD0 ≤ v) && decide (v ≤ 0xDF)
  | 0xDD => if memory then [1, 5].contains ext else (decide (0xC8 ≤ v) && decide (v ≤ 0xCF)) || decide (0xE0 ≤ v)
  | 0xDE => !memory && ((decide (0xD0 ≤ v) && decide (v ≤ 0xD8)) || (decide (0xDA ≤ v) && decide (v ≤ 0xDF)))
  | 0xDF => if memory then ext == 1 else decide (v ≤ 0xDF) || decide (0xE1 ≤ v)
  | _ => false

/-! ## Numbers and images -/

/-- The integer k is the magnitude v of a value of the given sign, rounded in the mode given (spec 11 R80): less than one
away; nearest at most one half away, even on a tie; chop toward zero; down and up toward minus and plus infinity. -/
def RoundsTo (rc : Rounding) (neg : Bool) (v : ℚ) (k : Nat) : Prop :=
  |v - k| < 1 ∧
  match rc with
  | .nearest => |v - k| ≤ 1 / 2 ∧ (|v - k| = 1 / 2 → k % 2 = 0)
  | .chop => (k : ℚ) ≤ v
  | .down => if neg then v ≤ k else (k : ℚ) ≤ v
  | .up => if neg then (k : ℚ) ≤ v else v ≤ k

/-- The 20-bit address of a selector and an offset (spec 10 R46). -/
def address20 (sel off : Word) : Nat := (sel.toNat * 16 + off.toNat) % 2 ^ 20

/-- The 20-bit address that two words of a Real-Address image hold: its low 16 bits, and its high four in bits 15:12 of the
second (spec 10 R46). -/
def imageAddress (lo hi : Word) : Nat := hi.toNat / 4096 * 65536 + lo.toNat

/-- The seven words of an environment image show control, status and tag word, and the pointers in the format of PM (spec 10
R46, R47, 45 R326). -/
def EnvironmentShown (pl : Platform) (n : Npx) (w : Nat → Word) : Prop :=
  w 0 = n.cw ∧ w 1 = statusWord pl n ∧ w 2 = tagWord n.tags ∧
  if n.pm then w 3 = n.fipOff ∧ w 4 = n.fipSel ∧ w 5 = n.fdpOff ∧ w 6 = n.fdpSel
  else imageAddress (w 3) (w 4) = address20 n.fipSel n.fipOff ∧ (w 4).toNat % 4096 = n.fop.toNat ∧
    imageAddress (w 5) (w 6) = address20 n.fdpSel n.fdpOff ∧ (w 6).toNat % 4096 = 0

/-- The ten bytes at 14 + 10 i of a state image are ST(i), least significant first (spec 45 R336). -/
def RegistersShown (n : Npx) (b : List Byte) : Prop :=
  ∀ k : RegNum, leNat ((b.drop (14 + 10 * k.toNat)).take 10) = (n.st k).toNat

/-- An NPX t has the fields that the seven words of an image give, the pointers read in the format of the PM of n, whose
opcode is kept in Protected format (spec 45 R329, 10 R46, R47). -/
def EnvironmentTaken (n t : Npx) (w : Nat → Word) : Prop :=
  t.cw = w 0 ∧ t.cc = (w 1).extractLsb' 14 1 ++ (w 1).extractLsb' 8 3 ∧ t.top = (w 1).extractLsb' 11 3 ∧
  t.flags = (w 1).extractLsb' 0 6 ∧ tagWord t.tags = w 2 ∧
  if n.pm then t.fipOff = w 3 ∧ t.fipSel = w 4 ∧ t.fdpOff = w 5 ∧ t.fdpSel = w 6 ∧ t.fop = n.fop
  else t.fipSel.toNat * 16 + t.fipOff.toNat = imageAddress (w 3) (w 4) ∧ t.fop = (w 4).extractLsb' 0 11 ∧
    t.fdpSel.toNat * 16 + t.fdpOff.toNat = imageAddress (w 5) (w 6)

/-! ## The invariant every step keeps -/

/-- What holds in every state the machine can get to: memory has its canonical form; while an image is waited for, every
exception is masked, or the NEU is busy and holds the image back (spec 45 R327, R335, 70 R441, R442); what is in flight
has words left, and not all the words of the longest operand (spec 10 R50, 60 R393). -/
structure Inv (s : State) : Prop where
  memory : s.mem.wf = true
  masked : s.npx.imagePending = true → masksOf s.npx.cw = 0b111111#6 ∨ s.npx.busy = true
  moving : ∀ g, s.npx.inFlight = some g → 0 < g.wordsLeft ∧ g.wordsLeft < 47

end Sys2Proof.Safety
end

