-- ==== Sys2Proof/Certificates/Slice0/Obligations.lean ====
section
/-! DEFINITION. The statements for the provers. -/

open Sys2Proof Sys2Proof.Machine Sys2Proof.Safety

/-- O1, tier 3. For every well-formed instruction i of the table and every bytes after it, decode of encode i
followed by those bytes is i and those bytes. Rules: R133, R139, R143, R157. -/
def Obligations.DecodeEncodeRoundTrip : Prop :=
  ∀ (i : Instr) (rest : List Byte), i.WellFormed = true → decode (encode i ++ rest) = .ok (i, rest)

/-- O2, tier 3. If bytes decode to an instruction i with some bytes left, then the bytes are encode i followed by
the bytes left, and the memory operand of i, if it has one, is one that has an encoding. Rules: R133, R139,
R157. -/
def Obligations.DecodingDeterminesTheBytes : Prop :=
  ∀ (bytes rest : List Byte) (i : Instr), decode bytes = .ok (i, rest) →
    bytes = encode i ++ rest ∧ ∀ m, i.operand = some m → m.WellFormed = true

/-- O3, tier 1. D9 EE is FLDZ, DC C3 is FADD ST(3),ST, DE E9 is FSUBP ST(1),ST, D8 E2 is FSUB ST,ST(2), 9B is FWAIT,
DB E3 is FNINIT, 2E DB 2E 00 00 is FLD of the temporary real at CS:[0] and DF 76 F0 is FBSTP of [BP-16]. Rules:
R134, R135, R137, R138, R139, R143, R144, R145, R151. -/
def Obligations.SpecWordsDecode : Prop :=
  decode [0xD9, 0xEE] = .ok (.fldz [], []) ∧ decode [0xDC, 0xC3] = .ok (.faddStiSt [] 3, []) ∧
  decode [0xDE, 0xE9] = .ok (.fsubpStiSt [] 1, []) ∧ decode [0xD8, 0xE2] = .ok (.fsubStSti [] 2, []) ∧
  decode [0x9B] = .ok (.fwait [], []) ∧ decode [0xDB, 0xE3] = .ok (.fninit [], []) ∧
  decode [0x2E, 0xDB, 0x2E, 0x00, 0x00] = .ok (.fldM80r [.cs] (.direct 0), []) ∧
  decode [0xDF, 0x76, 0xF0] = .ok (.fbstpM80d [] (.base8 .bp 0xF0), [])

/-- O4, tier 2. For first bytes D8H to DFH, with two more bytes at hand for a displacement, the decoder answers
unassigned for exactly the second bytes of the list of R146. Rules: R146, R133. -/
def Obligations.UnassignedCodesRefused : Prop :=
  ∀ (b1 b2 d1 d2 : Byte) (rest : List Byte), 0xD8 ≤ b1.toNat → b1.toNat ≤ 0xDF →
    (decode (b1 :: b2 :: d1 :: d2 :: rest) = .error .unassignedEsc ↔ unassigned b1 b2 = true)

/-- O5, tier 1. If the bytes fetched at CS:IP decode to i, step at that state is exec of i at that state; in
particular if they begin with the encoding of a well-formed i. If they do not decode, the step is refused by
name (an instruction that does not end within ten bytes too, log 10, PRESUMED), but for an unassigned ESC code:
with MP and EM it is refused as every ESC is, with EM or TS it takes interrupt 7, with no NPX it only moves IP
past its bytes, and else it is refused, as an ESC before a WAIT or as unassigned. That no NPX lets such a code
pass, and the order of these tests, are the model's reading (log 47, DEDUCED). Rules: R7, R157, R143, R146,
R392, R426, R441. -/
def Obligations.StepRunsTheDecodedInstruction : Prop :=
  (∀ (s : State) (i : Instr) (rest : List Byte), decode s.fetchWindow = .ok (i, rest) → step s = exec i s) ∧
  (∀ (s : State) (i : Instr) (rest : List Byte), i.WellFormed = true → s.fetchWindow = encode i ++ rest →
    step s = exec i s) ∧
  (∀ (s : State) (e : DecodeError), decode s.fetchWindow = .error e → e ≠ .unassignedEsc →
    step s = .refused (refusalOf e)) ∧
  (∀ s : State, decode s.fetchWindow = .error .unassignedEsc →
    (s.cpu.mp = true → s.cpu.em = true → step s = .refused .mpAndEmSet) ∧
    ((s.cpu.mp && s.cpu.em) = false → (s.cpu.em = true ∨ s.cpu.ts = true) →
      step s = .next (takeInterruptFrom .notAvailable s.cpu.cs.sel s.cpu.ip s)) ∧
    (s.cpu.em = false → s.cpu.ts = false → s.platform.npxPresent = false →
      step s = .next { s with cpu := { s.cpu with ip := s.cpu.ip + BitVec.ofNat 16 (escLength s.fetchWindow) } }) ∧
    (s.cpu.em = false → s.cpu.ts = false → s.platform.npxPresent = true →
      step s = .refused (if s.npx.imagePending then .escBeforeWait else .unassignedEsc)))

/-- O6, tier 3. From every state in which memory has its canonical form and in which, while an image is waited for,
all exceptions are masked or the NEU is busy and holds the image back, and in which what is in flight has words
left and not all 47, a step that gives a next state gives such a state. Rules: R327, R335, R441, R442, R50. -/
def Obligations.InvariantKept : Prop :=
  ∀ s t : State, Inv s → step s = .next t → Inv t

/-- O7, tier 1. The reset state meets the invariant that every step keeps. Rules: R421, R441. -/
def Obligations.InvariantAtReset : Prop :=
  Inv State.reset

/-- O8, tier 2. An instruction that gives a next state keeps BX, BP, SI, DI, DS, ES, SS, the MSW bits MP, EM, TS,
the mode of the 80286 and the platform; it keeps AX unless it is FNSTSW AX; it keeps PM where it is 1, and
changes it only if it is FSETPM. That an interrupt taken in Protected mode keeps the segment registers, the MSW
bits and the mode is the model's reading of HOST_VECTOR, without stack switches and task gates (log 15,
PRESUMED). Rules: R52, R54, R49, R321, R423. -/
def Obligations.HostAndModeKept : Prop :=
  ∀ (i : Instr) (s t : State), exec i s = .next t →
    t.platform = s.platform ∧ t.cpu.bx = s.cpu.bx ∧ t.cpu.bp = s.cpu.bp ∧ t.cpu.si = s.cpu.si ∧ t.cpu.di = s.cpu.di ∧
    t.cpu.ds = s.cpu.ds ∧ t.cpu.es = s.cpu.es ∧ t.cpu.ss = s.cpu.ss ∧ t.cpu.mp = s.cpu.mp ∧ t.cpu.em = s.cpu.em ∧
    t.cpu.ts = s.cpu.ts ∧ t.cpu.protectedMode = s.cpu.protectedMode ∧
    ((∀ p, i ≠ .fnstswAx p) → t.cpu.ax = s.cpu.ax) ∧
    (s.npx.pm = true → t.npx.pm = true) ∧ (t.npx.pm ≠ s.npx.pm → ∃ p, i = .fsetpm p)

/-- O9, tier 2. An instruction other than FNINIT, FNSAVE, FLDENV and FRSTOR that gives a next state leaves every
exception flag that was set set unless it is FNCLEX, and leaves the control word as it was unless it is FLDCW or
FNSTENV. Rules: R28, R38, R368. -/
def Obligations.FlagsAndControlWordWriters : Prop :=
  ∀ (i : Instr) (s t : State), exec i s = .next t →
    (∀ p, i ≠ .fninit p) → (∀ p m, i ≠ .fnsaveM94 p m) → (∀ p m, i ≠ .fldenvM14 p m) →
    (∀ p m, i ≠ .frstorM94 p m) →
    ((∀ p, i ≠ .fnclex p) → s.npx.flags &&& t.npx.flags = s.npx.flags) ∧
    ((∀ p m, i ≠ .fldcwM2 p m) → (∀ p m, i ≠ .fnstenvM14 p m) → t.npx.cw = s.npx.cw)

/-- O10, tier 2. With EM or TS set (and not both MP and EM) every ESC of the table takes interrupt 7, its return
link being the instruction, and leaves the NPX as it was; a WAIT does so with MP and TS. Rules: R392, R54. -/
def Obligations.NotAvailableTrap : Prop :=
  ∀ (i : Instr) (s : State), (s.cpu.mp && s.cpu.em) = false →
    (if isWait i then s.cpu.mp = true ∧ s.cpu.ts = true else s.cpu.em = true ∨ s.cpu.ts = true) →
    exec i s = .next (takeInterruptFrom .notAvailable s.cpu.cs.sel s.cpu.ip s) ∧
    (takeInterruptFrom .notAvailable s.cpu.cs.sel s.cpu.ip s).npx = s.npx

/-- O11, tier 2. With ERROR active every ESC that checks for errors, on an idle NPX that is present, with EM and TS
clear and no image waited for, takes interrupt 16, its return link being that ESC, and leaves the NPX (pointers
included) as it was; a WAIT does so with EM clear, unless interrupt 7 comes first. That interrupt 16 comes
before interrupt 13 and before the refusal of PC = 01B (log 13), and that ERROR ends a WAIT on a busy NEU (log
45), are the model's choices. Rules: R391, R345. -/
def Obligations.NumericErrorTrap : Prop :=
  ∀ (i : Instr) (s : State), noWait i = false → s.platform.npxPresent = true → s.error = true → s.cpu.em = false →
    (if isWait i then (s.cpu.mp && s.cpu.ts) = false
     else s.cpu.ts = false ∧ s.npx.imagePending = false ∧ s.npx.busy = false) →
    exec i s = .next (takeInterruptFrom .npxError s.cpu.cs.sel s.cpu.ip s) ∧
    (takeInterruptFrom .npxError s.cpu.cs.sel s.cpu.ip s).npx = s.npx

/-- O12, tier 2. On a ready machine every memory instruction whose first operand word lies outside its segment (or
may not be accessed) takes interrupt 13, its return link being the instruction, and leaves the NPX as it was.
That a word is outside when one of its bytes is, is the model's reading (log 12); the order of the tests is its
choice (log 13). Rules: R112, R394. -/
def Obligations.ProtectionTrap : Prop :=
  ∀ (i : Instr) (m : MemArg) (words : Nat) (write : Bool) (s : State), i.operand = some m →
    transfer i = some (words, write) → Ready s → (usesPrecision i = true → precisionReserved s.npx.cw = false) →
    (s.operandSegment i m).wordsInside (s.operandOffset m) words write = 0 →
    exec i s = .next (takeInterruptFrom .protection s.cpu.cs.sel s.cpu.ip s) ∧
    (takeInterruptFrom .protection s.cpu.cs.sel s.cpu.ip s).npx = s.npx

/-- O13, tier 2. On a ready machine an instruction of which the first but not every operand word lies inside the
segment takes interrupt 9 with an undefined return link. An arithmetic, comparison or load instruction: memory
before the interrupt, the flags, the control word and PM are kept and the pointers describe the instruction. A
store that no unmasked exception ends: memory outside the operand is kept, its flags are set unless the NEU
stays busy with it, the stack is kept or popped, the registers, control word and PM are kept and the pointers
describe the instruction. FLDENV and FRSTOR keep memory and PM; FNSTENV and FNSAVE, on an idle NPX and whatever
ERROR, keep memory outside the operand, the registers, the pointers and PM. What is kept, and when the flags of
a store are set, is the model's choice (log 14, DESIGN CHOICE); that a word is outside when one of its bytes is,
is its reading (log 12, DEDUCED). Rules: R112, R393. -/
def Obligations.SegmentOverrunTrap : Prop :=
  (∀ (i : Instr) (m : MemArg) (words : Nat) (s : State), i.operand = some m → transfer i = some (words, false) →
    ((arithMemForm i).isSome ∨ (compareMemForm i).isSome ∨ (loadForm i).isSome ∨ (realLoadForm i).isSome) →
    Ready s → (usesPrecision i = true → precisionReserved s.npx.cw = false) →
    0 < (s.operandSegment i m).wordsInside (s.operandOffset m) words false →
    (s.operandSegment i m).wordsInside (s.operandOffset m) words false < words →
    ∃ u : State, exec i s = .next (takeInterruptFrom .segmentOverrun (Config.freeLinkSel s.draws)
        (Config.freeLinkOff s.draws) u) ∧
      u.cpu = s.cpu ∧ u.mem = s.mem ∧ u.platform = s.platform ∧ u.npx.flags = s.npx.flags ∧ u.npx.cw = s.npx.cw ∧
      u.npx.pm = s.npx.pm ∧ InstructionLatched i s u ∧ DataLatched i m s u) ∧
  (∀ (i : Instr) (m : MemArg) (words pops v : Nat) (f : Nat → Word → TempReal → Out Nat) (s : State),
    storeForm i = some (m, words, pops, f) → Ready s →
    0 < (s.operandSegment i m).wordsInside (s.operandOffset m) words true →
    (s.operandSegment i m).wordsInside (s.operandOffset m) words true < words →
    let o := (s.npx.fetch 0).andThen (f s.draws s.npx.cw)
    o.value = some v →
    ∃ u : State, exec i s = .next (takeInterruptFrom .segmentOverrun (Config.freeLinkSel s.draws)
        (Config.freeLinkOff s.draws) u) ∧
      u.cpu = s.cpu ∧ u.platform = s.platform ∧ SameMemoryOutside s u (operandAddresses s i m (2 * words)) ∧
      u.npx.flags = (if u.npx.busy then s.npx.flags else s.npx.flags ||| o.flags) ∧ u.npx.cw = s.npx.cw ∧
      u.npx.pm = s.npx.pm ∧ (StackKept s u ∨ (pops = 1 ∧ Popped s u)) ∧ InstructionLatched i s u ∧ DataLatched i m s u) ∧
  (∀ (p : List Seg) (m : MemArg) (words : Nat) (i : Instr) (s : State),
    (i = .fldenvM14 p m ∧ words = 7 ∨ i = .frstorM94 p m ∧ words = 47) → Ready s →
    0 < (s.operandSegment i m).wordsInside (s.operandOffset m) words false →
    (s.operandSegment i m).wordsInside (s.operandOffset m) words false < words →
    ∃ u : State, exec i s = .next (takeInterruptFrom .segmentOverrun (Config.freeLinkSel s.draws)
        (Config.freeLinkOff s.draws) u) ∧
      u.cpu = s.cpu ∧ u.mem = s.mem ∧ u.platform = s.platform ∧ u.npx.pm = s.npx.pm) ∧
  (∀ (p : List Seg) (m : MemArg) (words : Nat) (i : Instr) (s : State),
    (i = .fnstenvM14 p m ∧ words = 7 ∨ i = .fnsaveM94 p m ∧ words = 47) → Passed s → s.npx.busy = false →
    0 < (s.operandSegment i m).wordsInside (s.operandOffset m) words true →
    (s.operandSegment i m).wordsInside (s.operandOffset m) words true < words →
    ∃ u : State, exec i s = .next (takeInterruptFrom .segmentOverrun (Config.freeLinkSel s.draws)
        (Config.freeLinkOff s.draws) u) ∧
      u.cpu = s.cpu ∧ u.platform = s.platform ∧ SameMemoryOutside s u (operandAddresses s i m (2 * words)) ∧
      PointersKept s u ∧ u.npx.regs = s.npx.regs ∧ u.npx.pm = s.npx.pm)

/-- O14, tier 2. In Real-Address mode taking interrupt n pushes FLAGS, CS and IP (three words, the last pushed
lowest), clears IF, loads IP and CS from the doubleword at 4n, and changes nothing else: neither another byte of
memory nor the NPX. The vector bytes must not be among the bytes pushed. The delivery is the spec's parameter
HOST_VECTOR as the model takes it (log 15). Rules: R395, R390. -/
def Obligations.InterruptEntry : Prop :=
  ∀ (v : IntVector) (sel off : Word) (s : State), s.cpu.protectedMode = false → s.mem.wf = true →
    (∀ k < 4, 4 * v.number + k ∉ s.addresses s.cpu.ss (s.cpu.sp - 6) 6) →
    let t := takeInterruptFrom v sel off s
    Stored t (s.addresses s.cpu.ss (s.cpu.sp - 6) 6)
      [lowByte off, highByte off, lowByte sel, highByte sel, lowByte s.cpu.flags, highByte s.cpu.flags] ∧
    SameMemoryOutside s t (s.addresses s.cpu.ss (s.cpu.sp - 6) 6) ∧
    t.cpu = { s.cpu with sp := s.cpu.sp - 6, flags := s.cpu.flags &&& ~~~0x0200#16,
                         ip := s.wordAt (4 * v.number), cs := realSegment (s.wordAt (4 * v.number + 2)) } ∧
    t.npx = s.npx ∧ t.platform = s.platform

/-- O15, tier 2. In Real-Address mode the return from an interrupt just taken goes to the selector and offset of its
return link, with FLAGS, SP, every other CPU register and the NPX as they were before the interrupt. IRET is
modelled as the spec names it (log 15, log 16). Rules: R391, R395. -/
def Obligations.InterruptReturn : Prop :=
  ∀ (v : IntVector) (sel off : Word) (s : State), s.cpu.protectedMode = false → s.mem.wf = true →
    ∃ t, iret (takeInterruptFrom v sel off s) = .next t ∧
      t.cpu = { s.cpu with cs := realSegment sel, ip := off } ∧ t.npx = s.npx ∧ t.platform = s.platform

/-- O16, tier 2. With MP and EM both set every instruction is refused; with an image not waited for every ESC that
gets to the NPX is refused; with PC = 01B every instruction that precision control applies to is refused on an
otherwise ready machine. The place of the last test is the model's choice (log 13). Rules: R392, R441, R34. -/
def Obligations.OutsideTheSpecRefused : Prop :=
  ∀ (i : Instr) (s : State),
    (s.cpu.mp = true → s.cpu.em = true → exec i s = .refused .mpAndEmSet) ∧
    (isWait i = false → s.platform.npxPresent = true → s.cpu.em = false → s.cpu.ts = false →
      s.npx.imagePending = true → exec i s = .refused .escBeforeWait) ∧
    (usesPrecision i = true → Ready s → precisionReserved s.npx.cw = true → exec i s = .refused .reservedPrecision)

/-- O17, tier 2. With an idle NPX, not both MP and EM, not both MP and TS, and ERROR inactive or EM set, a WAIT only
moves IP, and an image is then waited for no more; with no NPX it only moves IP. That a WAIT completes with EM
set and ERROR active, and without an NPX, rests on the decisions D33 and D35 of the spec as the model takes them
(log 45, DESIGN CHOICE). Rules: R345, R441, R392, R426. -/
def Obligations.WaitCompletes : Prop :=
  ∀ (p : List Seg) (s : State), (s.cpu.mp && s.cpu.em) = false → (s.cpu.mp && s.cpu.ts) = false →
    (s.platform.npxPresent = true → s.npx.busy = false → (s.cpu.em = true ∨ s.error = false) →
      ∃ t, exec (.fwait p) s = .next t ∧ OnlyIpMoves (.fwait p) s t ∧ SameMemory s t ∧
        t.npx = { s.npx with imagePending := false }) ∧
    (s.platform.npxPresent = false →
      ∃ t, exec (.fwait p) s = .next t ∧ OnlyIpMoves (.fwait p) s t ∧ SameMemory s t ∧ t.npx = s.npx)

/-- O18, tier 2. Bit 15 is NEU_busy OR ES, bit 14 C3, bits 13:11 TOP, bits 10:8 C2 C1 C0, bit 7 ES, bit 6 is 0, bits
5:0 the flags; with IEM not gating, ES is 1 exactly when some flag is set whose mask is 0; with IEM gating,
control word bit 7 must be 0 as well. That bit 6 reads 0 is the decision D6 of the spec (log 25);
IEM_GATES_ERROR is its parameter, data of the platform here (log 26, DESIGN CHOICE). Rules: R24, R25, R29, R30,
R36. -/
def Obligations.StatusWordLayout : Prop :=
  ∀ (pl : Platform) (n : Npx),
    let w := statusWord pl n
    (w.getLsbD 15 = (n.busy || w.getLsbD 7)) ∧ w.getLsbD 14 = n.cc.getLsbD 3 ∧ w.extractLsb' 11 3 = n.top ∧
    w.extractLsb' 8 3 = n.cc.extractLsb' 0 3 ∧ w.getLsbD 6 = false ∧ w.extractLsb' 0 6 = n.flags ∧
    (pl.iemGatesError = false →
      (w.getLsbD 7 = true ↔ ∃ k < 6, n.flags.getLsbD k = true ∧ n.cw.getLsbD k = false)) ∧
    (pl.iemGatesError = true →
      (w.getLsbD 7 = true ↔ n.cw.getLsbD 7 = false ∧ ∃ k < 6, n.flags.getLsbD k = true ∧ n.cw.getLsbD k = false))

/-- O19, tier 1. The tag of a value is zero (01B) for a true zero of either sign, special (10B) for a denormal
(exponent field 0, significand not 0) and for exponent field 7FFFH (infinities and NaNs), valid (00B) otherwise.
Rules: R41. -/
def Obligations.TagOfAValue : Prop :=
  ∀ r : TempReal,
    tagOf r = (if expField r = 0 then (if sigOf r = 0 then .zero else .special)
      else if expField r = 0x7FFF then .special else .valid) ∧
    Tag.code .valid = 0b00#2 ∧ Tag.code .zero = 0b01#2 ∧ Tag.code .special = 0b10#2

/-- O20, tier 1. After RESET: infinity control projective, rounding to nearest, 64-bit precision, IEM 1, all
exceptions masked, bits 15:13 of the control word 0; TOP 0, no flag, every tag empty, PM 0, nothing in flight,
ERROR inactive; MP, EM and TS 0 in the host. (Registers, pointers, condition code and control word bit 6 are the
model's choices, log 2 to log 4, and are not stated here.) Rules: R55, R421, R424, R49. -/
def Obligations.ResetState : Prop :=
  let s := State.reset
  affine s.npx.cw = false ∧ rounding s.npx.cw = .nearest ∧ precision s.npx.cw = 64 ∧ s.npx.cw.getLsbD 7 = true ∧
    masksOf s.npx.cw = 0b111111#6 ∧ s.npx.cw.extractLsb' 13 3 = 0 ∧ s.npx.top = 0 ∧ s.npx.flags = 0 ∧
    tagWord s.npx.tags = 0xFFFF ∧ s.npx.pm = false ∧ s.npx.busy = false ∧ s.error = false ∧
    s.cpu.mp = false ∧ s.cpu.em = false ∧ s.cpu.ts = false

/-- O21, tier 2. For the 18 register forms (FADD, FSUB, FSUBR, FMUL, FDIV, FDIVR in ST,ST(i), ST(i),ST and popping
form), on a ready machine with PC not reserved: the instruction gives a next state; the flags it signals are
added; an unmasked exception before the operation leaves registers, tags and TOP as they were; else the result
of the operation on the contents of the two registers before it, an empty one standing for the real indefinite
with I, replaces the destination, tagged by it, and the popping form then pops; nothing else of NPX, CPU or
memory changes but condition code, pointers, opcode and IP. That with I masked the later checks go on with that
indefinite is read from R191 and R192 (log 28, DEDUCED). Rules: R191, R192, R195, R196, R197, R371, R42, R44. -/
def Obligations.ArithmeticRegisterForms : Prop :=
  ∀ (i : Instr) (op : Config.BinOp) (rev : Bool) (dst src : RegNum) (pops : Nat) (s : State),
    arithRegForm i = some (op, rev, dst, src, pops) → Ready s → precisionReserved s.npx.cw = false →
    let o := (s.npx.fetchSource dst).andThen fun a => (s.npx.fetchSource src).andThen fun b =>
      arith s.npx.cw op rev a b
    ∃ t, exec i s = .next t ∧ NumericFrame i s t ∧ SameMemory s t ∧ t.npx.flags = s.npx.flags ||| o.flags ∧
      (o.value = none → StackKept s t) ∧
      ∀ v, o.value = some v → (pops = 0 ∧ Replaced s t dst v) ∨ (pops = 1 ∧ ReplacedPopped s t dst v)

/-- O22, tier 2. For the 24 memory forms (short real, long real, word integer, short integer operands), on a ready
machine with PC not reserved and an operand inside its segment: the instruction gives a next state; the flags it
signals are added; an unmasked exception before the operation leaves the stack as it was; else ST receives the
result of the operation on ST, an empty one standing for the real indefinite with I, and the operand; memory is
unchanged and the operand's address is latched. That with I masked the later checks go on with that indefinite
is read from R191 and R192 (log 28, DEDUCED). Rules: R191, R192, R198, R199, R371, R45. -/
def Obligations.ArithmeticMemoryForms : Prop :=
  ∀ (i : Instr) (op : Config.BinOp) (rev : Bool) (m : MemArg) (ty : MemType) (s : State),
    arithMemForm i = some (op, rev, m, ty) → Ready s → precisionReserved s.npx.cw = false →
    OperandFits s i m ty.words false →
    let b := ty.source ((operandAddresses s i m (2 * ty.words)).map s.mem.read)
    let o := (s.npx.fetchSource 0).andThen fun a => arith s.npx.cw op rev a b
    ∃ t, exec i s = .next t ∧ NumericFrame i s t ∧ SameMemory s t ∧ DataLatched i m s t ∧ t.npx.flags = s.npx.flags ||| o.flags ∧
      (o.value = none → StackKept s t) ∧ ∀ v, o.value = some v → Replaced s t 0 v

/-- O23, tier 2. For normal operands and each of addition, subtraction, multiplication and division, in either
order, if a normal temporary real r with no significand bit below the precision PC selects has exactly the value
of the operation, the operation answers r and signals nothing, whatever the rounding mode and the masks. Rules:
R80, R82, R83, R192, R193. -/
def Obligations.ExactResultsAreDelivered : Prop :=
  ∀ (cw : Word) (op : Config.BinOp) (rev : Bool) (a b r : TempReal), precisionReserved cw = false →
    classOf a = .normal → classOf b = .normal → classOf r = .normal → sigOf r % 2 ^ (64 - precision cw) = 0 →
    (let x := if rev then regVal b else regVal a
     let y := if rev then regVal a else regVal b
     regVal r = match op with
       | .add => x + y
       | .sub => x - y
       | .mul => x * y
       | .div => x / y) →
    arith cw op rev (ofReg a) (ofReg b) = { flags := 0, value := some r }

/-- O24, tier 2. A difference of equal normal values, or a sum of opposite ones, is +0, or -0 when rounding down,
with no flag. The sign is the model's, from what 11 R86 marks as general knowledge (log 32, PRESUMED). Rules:
R86, R194. -/
def Obligations.ExactCancellation : Prop :=
  ∀ (cw : Word) (a b : TempReal), classOf a = .normal → classOf b = .normal →
    (regVal a = regVal b →
      arith cw .sub false (ofReg a) (ofReg b) = { flags := 0, value := some (zeroOf (decide (rounding cw = .down))) }) ∧
    (regVal a = -regVal b →
      arith cw .add false (ofReg a) (ofReg b) = { flags := 0, value := some (zeroOf (decide (rounding cw = .down))) })

/-- O25, tier 2. For a magnitude of positive denominator and a grid 2^g, rounding gives a count k less than one away
from the exact quotient v; it is marked inexact exactly when v is not k; nearest is at most one half away and
even on a tie; chop does not exceed v; down and up go toward minus and plus infinity for the sign given. Rules:
R80. -/
def Obligations.RoundingIsCorrect : Prop :=
  ∀ (rc : Rounding) (neg : Bool) (x : Config.Mag) (g : Int), x.den ≠ 0 →
    let r := roundAt rc neg x g
    let v : ℚ := magVal x / (2 : ℚ) ^ g
    |v - r.count| < 1 ∧ (r.inexact = true ↔ v ≠ r.count) ∧
    match rc with
    | .nearest => |v - r.count| ≤ 1 / 2 ∧ (|v - r.count| = 1 / 2 → r.count % 2 = 0)
    | .chop => (r.count : ℚ) ≤ v
    | .down => if neg then v ≤ r.count else (r.count : ℚ) ≤ v
    | .up => if neg then (r.count : ℚ) ≤ v else v ≤ r.count

/-- O26, tier 2. For a magnitude x with 2^l <= x < 2^(l+1) and l at least -16382, whose delivery signals no
overflow, at each of the three precisions p: the delivered register is normal, has the sign given and no
significand bit below the precision; its magnitude is k * 2^(l-p+1) for the integer k that x / 2^(l-p+1) rounds
to in the mode RC selects; and P alone is signalled, exactly when that is not x. Rules: R193, R363, R80. -/
def Obligations.PrecisionFlagMeansInexact : Prop :=
  ∀ (cw : Word) (p : Nat) (neg : Bool) (x : Config.Mag) (l : Int), (p = 24 ∨ p = 53 ∨ p = 64) → x.den ≠ 0 →
    (2 : ℚ) ^ l ≤ magVal x → magVal x < (2 : ℚ) ^ (l + 1) → -16382 ≤ l → (deliver cw p neg x).flags &&& flagO = 0 →
    let unit : ℚ := (2 : ℚ) ^ (l - (p : Int) + 1)
    ∃ (r : TempReal) (k : Nat), (deliver cw p neg x).value = some r ∧ classOf r = .normal ∧ signOf r = neg ∧
      sigOf r % 2 ^ (64 - p) = 0 ∧ RoundsTo (rounding cw) neg (magVal x / unit) k ∧ magVal (magOf r) = k * unit ∧
      (deliver cw p neg x).flags = (if k * unit = magVal x then 0 else flagP)

/-- O27, tier 2. For a magnitude x with 2^l <= x < 2^(l+1), at each precision p. If l is below -16382, U is
signalled; masked, the result is a zero, a denormal or the smallest normal of the sign given, its magnitude k *
u for the integer k that x / u rounds to in the mode RC selects, u the larger of 2^-16445 and 2^(l-p+1), with P
exactly when that is not x; unmasked, U alone, and some value. Else let k be the integer that x / 2^(l-p+1)
rounds to: below 2^16384, k * 2^(l-p+1) signals neither O nor U; from 2^16384 on it signals O and not U:
unmasked O alone, and some value; masked P too, and infinity for nearest and chop and on the side of directed
rounding, the largest finite number on the other. That P is not signalled beside an unmasked O or U is read from
R364 (log 31, DEDUCED); the spacing u for p below 64, and that U is tested before rounding, are the decision D24
of the spec. Rules: R193, R359, R360, R364, R80, R81. -/
def Obligations.UnderflowAndOverflow : Prop :=
  ∀ (cw : Word) (p : Nat) (neg : Bool) (x : Config.Mag) (l : Int), (p = 24 ∨ p = 53 ∨ p = 64) → x.den ≠ 0 →
    (2 : ℚ) ^ l ≤ magVal x → magVal x < (2 : ℚ) ^ (l + 1) →
    (l < -16382 →
      let unit : ℚ := (2 : ℚ) ^ (max (-16445) (l - (p : Int) + 1))
      (masked cw flagU = false → (deliver cw p neg x).flags = flagU ∧ (deliver cw p neg x).value.isSome = true) ∧
      (masked cw flagU = true → ∃ (r : TempReal) (k : Nat), (deliver cw p neg x).value = some r ∧ signOf r = neg ∧
        (expField r = 0 ∨ (expField r = 1 ∧ sigOf r = 2 ^ 63)) ∧ RoundsTo (rounding cw) neg (magVal x / unit) k ∧
        magVal (magOf r) = k * unit ∧
        (deliver cw p neg x).flags = flagU ||| (if k * unit = magVal x then 0 else flagP))) ∧
    (-16382 ≤ l →
      let unit : ℚ := (2 : ℚ) ^ (l - (p : Int) + 1)
      ∃ k : Nat, RoundsTo (rounding cw) neg (magVal x / unit) k ∧
        (k * unit < (2 : ℚ) ^ (16384 : Int) → (deliver cw p neg x).flags &&& (flagO ||| flagU) = 0) ∧
        ((2 : ℚ) ^ (16384 : Int) ≤ k * unit →
          (masked cw flagO = false → (deliver cw p neg x).flags = flagO ∧ (deliver cw p neg x).value.isSome = true) ∧
          (masked cw flagO = true → (deliver cw p neg x).flags = flagO ||| flagP ∧ (deliver cw p neg x).value = some
            (match rounding cw with
              | .nearest => infinityOf neg
              | .chop => infinityOf neg
              | .up => if neg then packReal true 0x7FFE 0xFFFFFFFFFFFFFFFF else infinityOf false
              | .down => if neg then infinityOf true else packReal false 0x7FFE 0xFFFFFFFFFFFFFFFF))))

/-- O28, tier 2. For a normal dividend and a true zero divisor: Z, masked the infinity of XOR sign, unmasked no
result. For 0 / 0, infinity / infinity, and a divisor that is denormal, unnormal or a pseudo zero under a
dividend that is no NaN and no denormal: I and never Z, masked the real indefinite, unmasked no result. For a
denormal dividend over such a divisor: D, and D masked I as well with the same answer, unmasked no result.
Rules: R192, R216, R355, R367, R354, R410. -/
def Obligations.DivisionByZero : Prop :=
  ∀ (cw : Word) (a b : TempReal),
    (classOf a = .normal → classOf b = .zero → arith cw .div false (ofReg a) (ofReg b) =
      { flags := flagZ
        value := if cw.getLsbD 2 then some (packReal (signOf a != signOf b) 0x7FFF 0x8000000000000000) else none }) ∧
    ((classOf a = .zero ∧ classOf b = .zero) ∨ (classOf a = .infinity ∧ classOf b = .infinity) ∨
      (classOf a ≠ .nan ∧ classOf a ≠ .denormal ∧
        (classOf b = .denormal ∨ classOf b = .unnormal ∨ classOf b = .pseudoZero)) →
      arith cw .div false (ofReg a) (ofReg b) =
        { flags := flagI, value := if cw.getLsbD 0 then some indefinite else none }) ∧
    (classOf a = .denormal → (classOf b = .denormal ∨ classOf b = .unnormal ∨ classOf b = .pseudoZero) →
      arith cw .div false (ofReg a) (ofReg b) =
        if cw.getLsbD 1 then { flags := flagI ||| flagD, value := if cw.getLsbD 0 then some indefinite else none }
        else { flags := flagD, value := none })

/-- O29, tier 2. If an operand is a NaN and neither is a denormal (but for a divisor), each of the six operations
signals I alone; unmasked there is no result; masked the result is the NaN, and of two NaNs the one with the
larger significand, the destination on a tie (the tie is the spec's decision D14). A denormal operand, in a
register or in memory, other than a divisor, signals D: unmasked no result and D alone; masked D stands beside
what else is signalled, and a NaN then is I and the answer as before. Without one D is not signalled. Rules:
R79, R192, R353, R356. -/
def Obligations.NanOperands : Prop :=
  ∀ (cw : Word) (op : Config.BinOp) (rev : Bool) (a : TempReal),
    let nan (x y : TempReal) : Option TempReal := if cw.getLsbD 0 then some
      (if classOf x = .nan ∧ (classOf y = .nan → sigOf y ≤ sigOf x) then x else y) else none
    (∀ b : TempReal, (classOf a ≠ .denormal ∨ (op = .div ∧ rev = true)) →
      (classOf b ≠ .denormal ∨ (op = .div ∧ rev = false)) → (classOf a = .nan ∨ classOf b = .nan) →
      arith cw op rev (ofReg a) (ofReg b) = { flags := flagI, value := nan a b }) ∧
    (∀ src : Source,
      let o := arith cw op rev (ofReg a) src
      let used : Prop := (classOf a = .denormal ∧ ¬(op = .div ∧ rev = true)) ∨
        (src.denormal = true ∧ ¬(op = .div ∧ rev = false))
      (¬used → o.flags &&& flagD = 0) ∧
      (used → cw.getLsbD 1 = false → o = { flags := flagD, value := none }) ∧
      (used → cw.getLsbD 1 = true → o.flags &&& flagD = flagD ∧
        (classOf a = .nan ∨ classOf src.value = .nan → o = { flags := flagI ||| flagD, value := nan a src.value })))

/-- O30, tier 2. With a an infinity and b normal or zero: a + b, a - b is a, a / b is infinity of XOR sign, b / a is
a zero of XOR sign, b - a is infinity of the sign opposite to a's, all without a flag; a * b is infinity of XOR
sign for b normal, and for b zero invalid in either order. Two infinities: their sum is their infinity when
closure is affine and the signs agree and else invalid, a difference is infinity of the minuend's sign when
closure is affine and the signs differ and else invalid, their product is infinity of XOR sign without a flag,
their quotient invalid. Products and quotients without an invalid operation are what R85 and R216 mark as
general knowledge. Rules: R84, R85, R194, R210, R216. -/
def Obligations.InfinityArithmetic : Prop :=
  ∀ (cw : Word) (a b : TempReal), classOf a = .infinity →
    let quiet (v : TempReal) : Out TempReal := { flags := 0, value := some v }
    let invalid : Out TempReal := { flags := flagI, value := if cw.getLsbD 0 then some indefinite else none }
    let xor := signOf a != signOf b
    (classOf b = .normal ∨ classOf b = .zero →
      arith cw .add false (ofReg a) (ofReg b) = quiet a ∧ arith cw .sub false (ofReg a) (ofReg b) = quiet a ∧
      arith cw .sub true (ofReg a) (ofReg b) = quiet (infinityOf (!signOf a)) ∧
      arith cw .div false (ofReg a) (ofReg b) = quiet (infinityOf xor) ∧
      arith cw .div true (ofReg a) (ofReg b) = quiet (zeroOf xor)) ∧
    (classOf b = .normal → arith cw .mul false (ofReg a) (ofReg b) = quiet (infinityOf xor)) ∧
    (classOf b = .zero → ∀ rev, arith cw .mul rev (ofReg a) (ofReg b) = invalid) ∧
    (classOf b = .infinity →
      arith cw .add false (ofReg a) (ofReg b) =
        (if cw.getLsbD 12 = true ∧ signOf a = signOf b then quiet a else invalid) ∧
      arith cw .sub false (ofReg a) (ofReg b) =
        (if cw.getLsbD 12 = true ∧ signOf a ≠ signOf b then quiet a else invalid) ∧
      arith cw .sub true (ofReg a) (ofReg b) =
        (if cw.getLsbD 12 = true ∧ signOf a ≠ signOf b then quiet b else invalid) ∧
      arith cw .mul false (ofReg a) (ofReg b) = quiet (infinityOf xor) ∧
      arith cw .div false (ofReg a) (ofReg b) = invalid)

/-- O31, tier 2. On a ready machine (for FSQRT with PC not reserved) FSQRT, FRNDINT and F2XM1 give a next state: the
flags signalled are added, an unmasked exception before the operation leaves the stack as it was, else ST is
replaced by the value of the operation, which for an empty ST is the real indefinite with I; nothing else
changes but condition code, pointers, opcode and IP. With ST there F2XM1 signals at most U and P (that a
parameter which would signal another flag is excluded is the model's reading of 60 R365, log 41). Rules: R227,
R229, R282, R287, R365, R371. -/
def Obligations.UnaryForms : Prop :=
  ∀ (i : Instr) (f : Nat → Word → TempReal → Out TempReal) (s : State), unaryForm i = some f → Ready s →
    (usesPrecision i = true → precisionReserved s.npx.cw = false) →
    let o := if s.npx.isEmpty 0 then signalBefore s.npx.cw flagI indefinite else f s.draws s.npx.cw (s.npx.st 0)
    (∃ t, exec i s = .next t ∧ NumericFrame i s t ∧ SameMemory s t ∧ t.npx.flags = s.npx.flags ||| o.flags ∧
      (o.value = none → StackKept s t) ∧ ∀ v, o.value = some v → Replaced s t 0 v) ∧
    (∀ p, i = .f2xm1 p → s.npx.isEmpty 0 = false → o.flags &&& 0b001111#6 = 0)

/-- O32, tier 2. On a ready machine with ST not empty FABS gives ST with sign bit 0 and FCHS gives ST with its sign
bit reversed, whatever its class, with no flag; an empty ST signals I, masked ST becomes the real indefinite,
unmasked nothing changes. That a NaN signals no I is the decision D14 of the spec. Rules: R233, R234. -/
def Obligations.SignInstructions : Prop :=
  ∀ (p : List Seg) (s : State) (i : Instr), Ready s → (i = .fabs p ∨ i = .fchs p) →
    ∃ t, exec i s = .next t ∧ NumericFrame i s t ∧ SameMemory s t ∧
      (s.npx.isEmpty 0 = false → t.npx.flags = s.npx.flags ∧ ∃ v, Replaced s t 0 v ∧
        v.extractLsb' 0 79 = (s.npx.st 0).extractLsb' 0 79 ∧
        v.getLsbD 79 = (if i = .fabs p then false else !(s.npx.st 0).getLsbD 79)) ∧
      (s.npx.isEmpty 0 = true → t.npx.flags = s.npx.flags ||| flagI ∧
        (s.npx.cw.getLsbD 0 = true → Replaced s t 0 indefinite) ∧
        (s.npx.cw.getLsbD 0 = false → StackKept s t))

/-- O33, tier 2. If r is a positive normal with no bit below the precision and r * r is exactly the value of the
normal v, FSQRT's value is r with no flag. For every positive normal v with 4^e <= v < 4^(e+1), at the precision
p that PC selects, it is a positive normal k * u, u = 2^(e-p+1), that the root rounds to in the mode RC selects:
chop and down not above the root and less than u away, up not below it and less than u away, nearest at most u /
2 away and k even on a tie; P alone is signalled, exactly when its square is not v. A zero gives itself, and
+infinity in affine closure. A NaN is I, masked that NaN. A nonzero negative normal, an unnormal, a pseudo zero,
an infinity in projective closure and -infinity in affine closure are I, masked the real indefinite. A denormal
signals D and then, D masked, I (log 36, DEDUCED; the resolution C17 of the spec). Rules: R227, R354, R356, R80,
R84. -/
def Obligations.ExactSquareRoots : Prop :=
  ∀ (cw : Word) (v : TempReal),
    let invalid (w : TempReal) : Out TempReal := { flags := flagI, value := if cw.getLsbD 0 then some w else none }
    (∀ r : TempReal, classOf v = .normal → classOf r = .normal → signOf r = false →
      sigOf r % 2 ^ (64 - precision cw) = 0 → regVal r * regVal r = regVal v →
      sqrtValue cw v = { flags := 0, value := some r }) ∧
    (∀ e : Int, precisionReserved cw = false → classOf v = .normal → signOf v = false → (4 : ℚ) ^ e ≤ regVal v →
      regVal v < (4 : ℚ) ^ (e + 1) →
      let u : ℚ := (2 : ℚ) ^ (e - (precision cw : Int) + 1)
      ∃ (r : TempReal) (k : Nat), classOf r = .normal ∧ signOf r = false ∧ sigOf r % 2 ^ (64 - precision cw) = 0 ∧
        regVal r = k * u ∧
        sqrtValue cw v = { flags := if regVal r * regVal r = regVal v then 0 else flagP, value := some r } ∧
        match rounding cw with
        | .nearest => (((k : ℚ) - 1 / 2) * u) ^ 2 ≤ regVal v ∧ regVal v ≤ (((k : ℚ) + 1 / 2) * u) ^ 2 ∧
            ((((k : ℚ) - 1 / 2) * u) ^ 2 = regVal v ∨ (((k : ℚ) + 1 / 2) * u) ^ 2 = regVal v → k % 2 = 0)
        | .up => ((k - 1 : ℚ) * u) ^ 2 < regVal v ∧ regVal v ≤ (k * u) ^ 2
        | .chop => (k * u) ^ 2 ≤ regVal v ∧ regVal v < ((k + 1 : ℚ) * u) ^ 2
        | .down => (k * u) ^ 2 ≤ regVal v ∧ regVal v < ((k + 1 : ℚ) * u) ^ 2) ∧
    (classOf v = .zero → sqrtValue cw v = { flags := 0, value := some v }) ∧
    (classOf v = .nan → sqrtValue cw v = invalid v) ∧
    (classOf v = .infinity → sqrtValue cw v =
      if cw.getLsbD 12 = true ∧ signOf v = false then { flags := 0, value := some v } else invalid indefinite) ∧
    ((classOf v = .normal ∧ signOf v = true) ∨ classOf v = .unnormal ∨ classOf v = .pseudoZero →
      sqrtValue cw v = invalid indefinite) ∧
    (classOf v = .denormal → sqrtValue cw v =
      if cw.getLsbD 1 then { flags := flagI ||| flagD, value := if cw.getLsbD 0 then some indefinite else none }
      else { flags := flagD, value := none })

/-- O34, tier 2. For a normal v FRNDINT's value denotes an integer less than 1 away from v, on the side the mode
names, with the sign of v, and signals P alone, exactly when v is not that integer. Rules: R229, R80. -/
def Obligations.RoundToInteger : Prop :=
  ∀ (cw : Word) (v : TempReal), classOf v = .normal →
    ∃ (r : TempReal) (k : Int), (rndintValue cw v).value = some r ∧ regVal r = k ∧ signOf r = signOf v ∧
      |(k : ℚ) - regVal v| < 1 ∧ (rndintValue cw v).flags = (if regVal v = k then 0 else flagP) ∧
      match rounding cw with
      | .nearest => |(k : ℚ) - regVal v| ≤ 1 / 2 ∧ (|(k : ℚ) - regVal v| = 1 / 2 → k % 2 = 0)
      | .down => (k : ℚ) ≤ regVal v
      | .up => regVal v ≤ k
      | .chop => |(k : ℚ)| ≤ |regVal v|

/-- O35, tier 2. On a ready machine FSCALE gives a next state. With both registers there, ST receives the value of
scaling it by ST(1); with one empty it signals I, masked ST receives the real indefinite. An unmasked exception
before the operation leaves the stack as it was. ST(1) and everything else are kept but condition code,
pointers, opcode and IP. Rules: R228, R352. -/
def Obligations.ScaleForm : Prop :=
  ∀ (p : List Seg) (s : State), Ready s →
    let o := if s.npx.isEmpty 0 || s.npx.isEmpty 1 then signalBefore s.npx.cw flagI indefinite
      else scaleValue s.npx.cw s.draws (s.npx.st 0) (s.npx.st 1)
    ∃ t, exec (.fscale p) s = .next t ∧ NumericFrame (.fscale p) s t ∧ SameMemory s t ∧
      t.npx.flags = s.npx.flags ||| o.flags ∧ (o.value = none → StackKept s t) ∧
      ∀ v, o.value = some v → Replaced s t 0 v

/-- O36, tier 2. For a normal a and a scale factor whose value is an integer n with -2^15 <= n < 2^15 (a normal, or
a zero), if a normal r has the value a * 2^n then FSCALE's value is r with no flag, whatever the control word;
the same for a normal scale factor of magnitude 1 or more in that range and n its value chopped toward zero. A
normal factor out of range, or between 0 and 1 in magnitude, gives some value with no flag. A NaN operand is
invalid and the answer, of two NaNs the one with the larger significand, ST on a tie (the spec's decision D14).
An infinity scaled by an infinity and a normal, denormal or unnormal scaled by an infinity are invalid. An
infinity scaled by a finite factor, and a zero scaled by any number, are themselves, with no flag. Rules: R228,
R84, R79. -/
def Obligations.ScaleByAnInteger : Prop :=
  ∀ (cw : Word) (draw : Nat) (a k : TempReal),
    let invalid (v : TempReal) : Out TempReal := { flags := flagI, value := if cw.getLsbD 0 then some v else none }
    (∀ (r : TempReal) (n : Int), classOf a = .normal → (classOf k = .normal ∨ classOf k = .zero) → regVal k = n →
      -32768 ≤ n → n < 32768 → classOf r = .normal → regVal r = regVal a * (2 : ℚ) ^ n →
      scaleValue cw draw a k = { flags := 0, value := some r }) ∧
    (∀ (r : TempReal) (n : Int), classOf a = .normal → classOf k = .normal → 1 ≤ |regVal k| → -32768 ≤ regVal k →
      regVal k < 32768 → |(n : ℚ)| ≤ |regVal k| → |regVal k| < |(n : ℚ)| + 1 → 0 ≤ n * regVal k →
      classOf r = .normal → regVal r = regVal a * (2 : ℚ) ^ n →
      scaleValue cw draw a k = { flags := 0, value := some r }) ∧
    (classOf a = .normal → classOf k = .normal → (regVal k < -32768 ∨ 32768 ≤ regVal k ∨ |regVal k| < 1) →
      (scaleValue cw draw a k).flags = 0 ∧ (scaleValue cw draw a k).value.isSome = true) ∧
    (classOf a = .nan ∨ classOf k = .nan → scaleValue cw draw a k =
      invalid (if classOf a = .nan ∧ (classOf k = .nan → sigOf k ≤ sigOf a) then a else k)) ∧
    (classOf a = .infinity ∨ classOf a = .normal ∨ classOf a = .denormal ∨ classOf a = .unnormal →
      classOf k = .infinity → scaleValue cw draw a k = invalid indefinite) ∧
    (classOf a = .infinity → classOf k ≠ .infinity → classOf k ≠ .nan →
      scaleValue cw draw a k = { flags := 0, value := some a }) ∧
    (classOf a = .zero → classOf k ≠ .nan → scaleValue cw draw a k = { flags := 0, value := some a })

/-- O37, tier 2. On a ready machine FPREM gives a next state. With both registers there, ST receives the partial
remainder and the condition code says how it ended; with one empty it signals I, masked ST receives the real
indefinite and C2 is 0. An unmasked exception before the operation leaves the stack as it was. Everything else
is kept but pointers, opcode and IP. Rules: R231, R232, R352. -/
def Obligations.RemainderForm : Prop :=
  ∀ (p : List Seg) (s : State), Ready s →
    let o := if s.npx.isEmpty 0 || s.npx.isEmpty 1 then signalBefore s.npx.cw flagI (indefinite, PremEnd.invalid)
      else premValue s.npx.cw (s.npx.st 0) (s.npx.st 1)
    ∃ t, exec (.fprem p) s = .next t ∧ NumericFrame (.fprem p) s t ∧ SameMemory s t ∧
      t.npx.flags = s.npx.flags ||| o.flags ∧ (o.value = none → StackKept s t) ∧
      ∀ v, o.value = some v → Replaced s t 0 v.1 ∧
        match v.2 with
        | .complete q => t.npx.cc.getLsbD 2 = false ∧ t.npx.cc.getLsbD 1 = q.testBit 0 ∧
            t.npx.cc.getLsbD 3 = (if 2 ≤ q then q.testBit 1 else s.npx.cc.getLsbD 1) ∧
            t.npx.cc.getLsbD 0 = (if 4 ≤ q then q.testBit 2 else s.npx.cc.getLsbD 3)
        | .incomplete => t.npx.cc.getLsbD 2 = true
        | .invalid => t.npx.cc.getLsbD 2 = false

/-- O38, tier 2. For normal a and b with |a| = A, |b| = B, FPREM's value r has the sign of a and, if r is not below
2^-16382 (or is zero), no flag is signalled: if the binary exponents differ by less than 64, r is A - Q B in
magnitude for Q the integer part of A / B and the code says complete with Q; else r is A minus a multiple of B,
smaller than A, and the code says incomplete. A NaN operand is I and the answer, of two NaNs the one with the
larger significand, the dividend on a tie (the spec's decision D14); a modulus that is zero, denormal, unnormal
or a pseudo zero, and an infinite dividend, are I with the real indefinite; in these cases the code says
complete. A finite dividend with an infinite modulus, and a zero with a normal one, are unchanged with quotient
0 and no flag. A denormal dividend signals D first: unmasked there is no result, masked the cases above follow
with D added. Rules: R232, R79, R84. -/
def Obligations.RemainderIsExact : Prop :=
  ∀ (cw : Word) (a b : TempReal),
    let d := magLog (magOf a) - magLog (magOf b)
    let q : Nat := ⌊magVal (magOf a) / magVal (magOf b)⌋.toNat
    let rest : ℚ := magVal (magOf a) - q * magVal (magOf b)
    let invalid (v : TempReal) : Out (TempReal × PremEnd) :=
      { flags := flagI, value := if cw.getLsbD 0 then some (v, .invalid) else none }
    let afterD (o : Out (TempReal × PremEnd)) : Out (TempReal × PremEnd) :=
      if classOf a = .denormal then
        if cw.getLsbD 1 then { flags := flagD ||| o.flags, value := o.value } else { flags := flagD, value := none }
      else o
    (classOf a = .normal → classOf b = .normal →
      (d < 64 → (rest = 0 ∨ (2 : ℚ) ^ (-16382 : Int) ≤ rest) →
        ∃ r, premValue cw a b = { flags := 0, value := some (r, .complete q) } ∧ signOf r = signOf a ∧
          magVal (magOf r) = rest) ∧
      (64 ≤ d → ∃ k : Nat, 1 ≤ k ∧ magVal (magOf a) - k * magVal (magOf b) < magVal (magOf a) ∧
        0 ≤ magVal (magOf a) - k * magVal (magOf b) ∧
        (magVal (magOf a) - k * magVal (magOf b) = 0 ∨
          (2 : ℚ) ^ (-16382 : Int) ≤ magVal (magOf a) - k * magVal (magOf b) →
          ∃ r, premValue cw a b = { flags := 0, value := some (r, .incomplete) } ∧ signOf r = signOf a ∧
            magVal (magOf r) = magVal (magOf a) - k * magVal (magOf b)))) ∧
    (classOf a = .nan ∨ classOf b = .nan → premValue cw a b =
      afterD (invalid (if classOf a = .nan ∧ (classOf b = .nan → sigOf b ≤ sigOf a) then a else b))) ∧
    (classOf a ≠ .nan →
      (classOf b = .zero ∨ classOf b = .denormal ∨ classOf b = .unnormal ∨ classOf b = .pseudoZero ∨
        (classOf a = .infinity ∧ classOf b ≠ .nan)) → premValue cw a b = afterD (invalid indefinite)) ∧
    ((classOf a ≠ .nan ∧ classOf a ≠ .infinity ∧ classOf b = .infinity) ∨ (classOf a = .zero ∧ classOf b = .normal) →
      premValue cw a b = afterD { flags := 0, value := some (a, .complete 0) })

/-- O39, tier 2. On a ready machine FXTRACT gives a next state. With ST not empty and the register below the top
empty, both results are tagged by their values, and: for a normal, unnormal or pseudo zero v, ST(1) is the
integer exponent of v and ST is v with exponent field 3FFFH, and v = ST * 2^ST(1) holds for a normal; for a
denormal ST(1) is -16382 and ST its significand with exponent field 3FFFH; for a zero both are that zero; no
flag. An infinity or a NaN signals I: masked both are the real indefinite, or the NaN, unmasked nothing changes.
With ST empty or no room it signals I: masked both are the real indefinite, also for a NaN operand (log 35,
DEDUCED; the decision D27 of the spec), unmasked nothing changes. Rules: R230, R42. -/
def Obligations.ExtractForm : Prop :=
  ∀ (p : List Seg) (s : State), Ready s →
    let v := s.npx.st 0
    ∃ t, exec (.fxtract p) s = .next t ∧ NumericFrame (.fxtract p) s t ∧ SameMemory s t ∧
      (∀ q, q ≠ s.npx.top → q ≠ s.npx.top - 1 → t.npx.reg q = s.npx.reg q ∧ t.npx.tag q = s.npx.tag q) ∧
      (t.npx.top = s.npx.top - 1 → t.npx.tag s.npx.top = tagOf (t.npx.reg s.npx.top) ∧
        t.npx.tag (s.npx.top - 1) = tagOf (t.npx.reg (s.npx.top - 1))) ∧
      (s.npx.isEmpty 0 = false → s.npx.isEmpty 7 = true →
        (classOf v = .normal ∨ classOf v = .unnormal ∨ classOf v = .pseudoZero →
          t.npx.flags = s.npx.flags ∧ t.npx.top = s.npx.top - 1 ∧
          t.npx.reg s.npx.top = ofInt ((expField v : Int) - 16383) ∧
          t.npx.reg (s.npx.top - 1) = packReal (signOf v) 0x3FFF (sigOf v)) ∧
        (classOf v = .normal →
          regVal v = regVal (t.npx.reg (s.npx.top - 1)) * (2 : ℚ) ^ ((expField v : Int) - 16383)) ∧
        (classOf v = .denormal → t.npx.flags = s.npx.flags ∧ t.npx.top = s.npx.top - 1 ∧
          t.npx.reg s.npx.top = ofInt (-16382) ∧
          t.npx.reg (s.npx.top - 1) = packReal (signOf v) 0x3FFF (sigOf v)) ∧
        (classOf v = .zero → t.npx.flags = s.npx.flags ∧ t.npx.top = s.npx.top - 1 ∧
          t.npx.reg s.npx.top = v ∧ t.npx.reg (s.npx.top - 1) = v) ∧
        (classOf v = .infinity ∨ classOf v = .nan → t.npx.flags = s.npx.flags ||| flagI ∧
          (s.npx.cw.getLsbD 0 = true → t.npx.top = s.npx.top - 1 ∧
            t.npx.reg s.npx.top = (if classOf v = .nan then v else indefinite) ∧
            t.npx.reg (s.npx.top - 1) = (if classOf v = .nan then v else indefinite)) ∧
          (s.npx.cw.getLsbD 0 = false → StackKept s t))) ∧
      (s.npx.isEmpty 0 = true ∨ s.npx.isEmpty 7 = false →
        t.npx.flags = s.npx.flags ||| flagI ∧
        (s.npx.cw.getLsbD 0 = true → t.npx.top = s.npx.top - 1 ∧ t.npx.reg s.npx.top = indefinite ∧
          t.npx.reg (s.npx.top - 1) = indefinite) ∧
        (s.npx.cw.getLsbD 0 = false → StackKept s t))

/-- O40, tier 2. On a ready machine each of FLDZ, FLD1, FLDPI, FLDL2T, FLDL2E, FLDLG2, FLDLN2 gives a next state:
with room, its constant is pushed and no flag is signalled; without, I is signalled, masked the real indefinite
is pushed, unmasked nothing changes. FLDZ's constant is +0, FLD1's +1.0, and each of the others is one of the
two 64-bit neighbours of the mathematical constant (log 42). Rules: R161, R300, R301, R302, R303. -/
def Obligations.ConstantsArePushed : Prop :=
  (∀ (i : Instr) (c : TempReal) (s : State), constForm i = some c → Ready s →
    ∃ t, exec i s = .next t ∧ NumericFrame i s t ∧ SameMemory s t ∧
      (s.npx.isEmpty 7 = true → t.npx.flags = s.npx.flags ∧ Pushed s t c) ∧
      (s.npx.isEmpty 7 = false → t.npx.flags = s.npx.flags ||| flagI ∧
        (s.npx.cw.getLsbD 0 = true → Pushed s t indefinite) ∧ (s.npx.cw.getLsbD 0 = false → StackKept s t))) ∧
  zeroOf false = 0#80 ∧ oneReal = 0x3FFF8000000000000000#80 ∧
  (piReal = 0x4000C90FDAA22168C234#80 ∨ piReal = 0x4000C90FDAA22168C235#80) ∧
  (l2tReal = 0x4000D49A784BCD1B8AFE#80 ∨ l2tReal = 0x4000D49A784BCD1B8AFF#80) ∧
  (l2eReal = 0x3FFFB8AA3B295C17F0BB#80 ∨ l2eReal = 0x3FFFB8AA3B295C17F0BC#80) ∧
  (lg2Real = 0x3FFD9A209A84FBCFF798#80 ∨ lg2Real = 0x3FFD9A209A84FBCFF799#80) ∧
  (ln2Real = 0x3FFEB17217F7D1CF79AB#80 ∨ ln2Real = 0x3FFEB17217F7D1CF79AC#80)

/-- O41, tier 2. On a ready machine each gives a next state: with both registers there, the flags and the value of
the function of ST and ST(1) are delivered to ST(1), and the stack is popped; with one empty, I is signalled,
masked the real indefinite takes the place of the value, unmasked nothing changes. With both registers there, an
operand outside the range of the instruction never signals I, D, Z or O; inside it FPATAN signals at most U and
P, and gives a zero and no flag for Y = 0, FYL2X at most O, U and P, FYL2XP1 at most U and P (that a parameter
which would signal another flag is excluded is the model's reading of 60 R365, and U of FYL2XP1 its reading of
R281 and R289, log 41). Rules: R281, R282, R283, R286, R288, R289, R365. -/
def Obligations.TranscendentalsOfTwoOperands : Prop :=
  ∀ (i : Instr) (f : Nat → Word → TempReal → TempReal → Out TempReal) (s : State), transc2Form i = some f → Ready s →
    let x := s.npx.st 0
    let y := s.npx.st 1
    let o := if s.npx.isEmpty 0 || s.npx.isEmpty 1 then signalBefore s.npx.cw flagI indefinite
      else f s.draws s.npx.cw x y
    (∃ t, exec i s = .next t ∧ NumericFrame i s t ∧ SameMemory s t ∧ t.npx.flags = s.npx.flags ||| o.flags ∧
      (o.value = none → StackKept s t) ∧ ∀ v, o.value = some v → ReplacedPopped s t 1 v) ∧
    (s.npx.isEmpty 0 = false → s.npx.isEmpty 1 = false →
      (∀ p, i = .fpatan p → o.flags &&& 0b001111#6 = 0 ∧
        (patanInRange y x = true → classOf y = .zero →
          o.flags = 0 ∧ ∃ z, o.value = some z ∧ classOf z = .zero)) ∧
      (∀ p, i = .fyl2x p → o.flags &&& (if yl2xInRange x y then 0b000111#6 else 0b001111#6) = 0) ∧
      (∀ p, i = .fyl2xp1 p → o.flags &&& 0b001111#6 = 0))

/-- O42, tier 2. On a ready machine FPTAN gives a next state: with ST there and room, ST is replaced by Y and X is
pushed, with the flags their delivery signals; a stack fault signals I, masked both are the real indefinite,
unmasked nothing changes. All other registers and tags are kept. With no stack fault an angle in range signals
at most P (that a parameter which would signal another flag is excluded is the model's reading of 60 R365, log
41), another at most U and P. Rules: R282, R283, R285, R365. -/
def Obligations.PartialTangent : Prop :=
  ∀ (p : List Seg) (s : State), Ready s →
    let o := if s.npx.isEmpty 0 || !s.npx.isEmpty 7 then signalBefore s.npx.cw flagI (indefinite, indefinite)
      else ptanValue s.npx.cw s.draws (s.npx.st 0)
    (∃ t, exec (.fptan p) s = .next t ∧ NumericFrame (.fptan p) s t ∧ SameMemory s t ∧
      t.npx.flags = s.npx.flags ||| o.flags ∧ (o.value = none → StackKept s t) ∧
      ∀ v, o.value = some v → t.npx.top = s.npx.top - 1 ∧ t.npx.reg s.npx.top = v.1 ∧
        t.npx.reg (s.npx.top - 1) = v.2 ∧ t.npx.tag s.npx.top = tagOf v.1 ∧
        t.npx.tag (s.npx.top - 1) = tagOf v.2 ∧
        ∀ q, q ≠ s.npx.top → q ≠ s.npx.top - 1 → t.npx.reg q = s.npx.reg q ∧ t.npx.tag q = s.npx.tag q) ∧
    (s.npx.isEmpty 0 = false → s.npx.isEmpty 7 = true →
      o.flags &&& (if ptanInRange (s.npx.st 0) then 0b011111#6 else 0b001111#6) = 0)

/-- O43, tier 2. On a ready machine FCOM ST(i), FCOMP ST(i) and FCOMPP give a next state: C3 C2 C0 say how ST
compares with the source, no register changes, and the popping forms pop once or twice; an unmasked exception
leaves tags and TOP as they were. Rules: R250, R251, R252, R253, R255, R257. -/
def Obligations.ComparisonRegisterForms : Prop :=
  ∀ (i : Instr) (k : RegNum) (pops : Nat) (s : State), compareRegForm i = some (k, pops) → Ready s →
    let o := (s.npx.fetch 0).andThen fun a => (s.npx.fetch k).andThen fun b => compareValues s.npx.cw a b
    ∃ t, exec i s = .next t ∧ NumericFrame i s t ∧ SameMemory s t ∧ t.npx.flags = s.npx.flags ||| o.flags ∧ t.npx.regs = s.npx.regs ∧
      (o.value = none → StackKept s t) ∧
      ∀ v, o.value = some v →
        (t.npx.cc.getLsbD 3, t.npx.cc.getLsbD 2, t.npx.cc.getLsbD 0) =
          (match v with
            | .greater => (false, false, false)
            | .less => (false, false, true)
            | .equal => (true, false, false)
            | .unordered => (true, true, true)) ∧
        t.npx.top = s.npx.top + BitVec.ofNat 3 pops ∧
        ∀ q, t.npx.tag q = if (q - s.npx.top).toNat < pops then .empty else s.npx.tag q

/-- O44, tier 2. On a ready machine with an operand inside its segment the memory comparisons give a next state: C3
C2 C0 say how ST compares with the operand, no register and no byte of memory changes, and the popping forms
pop. An empty ST against a denormal operand signals I and D together. FTST does the same against +0. Rules:
R251, R252, R254, R256, R258, R259, R260, R366. -/
def Obligations.ComparisonMemoryForms : Prop :=
  ∀ (i : Instr) (b : Source) (pops : Nat) (s : State), Ready s →
    ((∃ m ty, compareMemForm i = some (m, ty, pops) ∧ OperandFits s i m ty.words false ∧
        b = ty.source ((operandAddresses s i m (2 * ty.words)).map s.mem.read)) ∨
      (∃ p, i = .ftst p ∧ pops = 0 ∧ b = { value := 0, denormal := false })) →
    let o := if s.npx.isEmpty 0 ∧ b.denormal = true then
        (signalBefore s.npx.cw (flagI ||| flagD) ()).andThen fun _ => compareValues s.npx.cw indefinite b.value
      else (s.npx.fetch 0).andThen fun a => compareValues s.npx.cw a b.value
    ∃ t, exec i s = .next t ∧ NumericFrame i s t ∧ SameMemory s t ∧ t.npx.flags = s.npx.flags ||| o.flags ∧ t.npx.regs = s.npx.regs ∧
      (o.value = none → StackKept s t) ∧
      ∀ v, o.value = some v →
        (t.npx.cc.getLsbD 3, t.npx.cc.getLsbD 2, t.npx.cc.getLsbD 0) =
          (match v with
            | .greater => (false, false, false)
            | .less => (false, false, true)
            | .equal => (true, false, false)
            | .unordered => (true, true, true)) ∧
        t.npx.top = s.npx.top + BitVec.ofNat 3 pops ∧
        ∀ q, t.npx.tag q = if (q - s.npx.top).toNat < pops then .empty else s.npx.tag q

/-- O45, tier 2. For finite operands the comparison answers greater, less or equal exactly as the rational values
compare, zeros of either sign and pseudo zeros being equal: without a flag if both are normal, zero or pseudo
zero, and with D, unmasked without an answer, if one is a denormal or an unnormal. A NaN on either side is not
comparable and signals I, after D where the other operand is a denormal or an unnormal. In affine closure
infinities are ordered by sign among themselves and beyond every normal, zero and pseudo zero; in projective
closure two infinities are equal without I (the spec's choice 90 C7, log 37, DEDUCED), and an infinity against a
normal, zero or pseudo zero is not comparable and signals I. Rules: R252, R76, R84. -/
def Obligations.ComparisonIsByValue : Prop :=
  ∀ (cw : Word) (a b : TempReal),
    let order : Order := if regVal b < regVal a then .greater else if regVal a < regVal b then .less else .equal
    ((classOf a = .normal ∨ classOf a = .zero ∨ classOf a = .pseudoZero) →
      (classOf b = .normal ∨ classOf b = .zero ∨ classOf b = .pseudoZero) →
      compareValues cw a b = { flags := 0, value := some order }) ∧
    (classOf a ≠ .infinity → classOf a ≠ .nan → classOf b ≠ .infinity → classOf b ≠ .nan →
      (classOf a = .denormal ∨ classOf a = .unnormal ∨ classOf b = .denormal ∨ classOf b = .unnormal) →
      compareValues cw a b = { flags := flagD, value := if cw.getLsbD 1 then some order else none }) ∧
    (classOf a = .infinity → classOf b = .infinity → compareValues cw a b =
      { flags := 0
        value := some (if cw.getLsbD 12 = false ∨ signOf a = signOf b then .equal
          else if signOf a then .less else .greater) }) ∧
    (classOf a = .infinity → (classOf b = .normal ∨ classOf b = .zero ∨ classOf b = .pseudoZero) →
      compareValues cw a b =
        (if cw.getLsbD 12 then { flags := 0, value := some (if signOf a then .less else .greater) }
         else { flags := flagI, value := if cw.getLsbD 0 then some .unordered else none }) ∧
      compareValues cw b a =
        (if cw.getLsbD 12 then { flags := 0, value := some (if signOf a then .greater else .less) }
         else { flags := flagI, value := if cw.getLsbD 0 then some .unordered else none })) ∧
    (classOf a = .nan ∨ classOf b = .nan → compareValues cw a b =
      if classOf a = .denormal ∨ classOf a = .unnormal ∨ classOf b = .denormal ∨ classOf b = .unnormal then
        if cw.getLsbD 1 then { flags := flagI ||| flagD, value := if cw.getLsbD 0 then some .unordered else none }
        else { flags := flagD, value := none }
      else { flags := flagI, value := if cw.getLsbD 0 then some .unordered else none })

/-- O46, tier 2. On a ready machine FXAM gives a next state with no flag signalled and registers, tags and TOP kept;
C1 is the sign of ST and C3 C2 C0 its class (000 unnormal or pseudo zero, 001 NaN, 010 normal, 011 infinity, 100
zero, 110 denormal); for an empty ST, C3 and C0 are 1. Rules: R262. -/
def Obligations.ExamineReportsTheClass : Prop :=
  ∀ (p : List Seg) (s : State), Ready s →
    ∃ t, exec (.fxam p) s = .next t ∧ NumericFrame (.fxam p) s t ∧ SameMemory s t ∧ StackKept s t ∧
      t.npx.flags = s.npx.flags ∧
      (s.npx.isEmpty 0 = true → t.npx.cc.getLsbD 3 = true ∧ t.npx.cc.getLsbD 0 = true) ∧
      (s.npx.isEmpty 0 = false → t.npx.cc.getLsbD 1 = (s.npx.st 0).getLsbD 79 ∧
        (t.npx.cc.getLsbD 3, t.npx.cc.getLsbD 2, t.npx.cc.getLsbD 0) =
          (if expField (s.npx.st 0) = 0 then
            if sigOf (s.npx.st 0) = 0 then (true, false, false) else (true, true, false)
          else if expField (s.npx.st 0) = 0x7FFF then
            if sigOf (s.npx.st 0) = 2 ^ 63 then (false, true, true) else (false, false, true)
          else if 2 ^ 63 ≤ sigOf (s.npx.st 0) then (false, true, false) else (false, false, false)))

/-- O47, tier 2. On a ready machine: FLD ST(i) pushes a copy of ST(i) when it is there and there is room; FST ST(i)
writes ST to ST(i) and FSTP ST(i) also pops, when ST is there; FXCH ST(i) exchanges ST and ST(i) with their tags
when both are there; no flag in these cases, bits copied as they are whatever their class. Where a register read
is empty or there is no room, I is signalled, and unmasked nothing else changes. That a NaN moves without I is
the decision D14 of the spec (log 43, PRESUMED). Rules: R163, R170, R173, R185, R162. -/
def Obligations.RegisterTransfers : Prop :=
  ∀ (p : List Seg) (k : RegNum) (s : State), Ready s →
    (∃ t, exec (.fldSti p k) s = .next t ∧ NumericFrame (.fldSti p k) s t ∧ SameMemory s t ∧
      (s.npx.isEmpty k = false → s.npx.isEmpty 7 = true → t.npx.flags = s.npx.flags ∧ Pushed s t (s.npx.st k)) ∧
      (s.npx.isEmpty k = true ∨ s.npx.isEmpty 7 = false → t.npx.flags = s.npx.flags ||| flagI ∧
        (s.npx.cw.getLsbD 0 = true → Pushed s t indefinite) ∧ (s.npx.cw.getLsbD 0 = false → StackKept s t))) ∧
    (∃ t, exec (.fstSti p k) s = .next t ∧ NumericFrame (.fstSti p k) s t ∧ SameMemory s t ∧
      (s.npx.isEmpty 0 = false → t.npx.flags = s.npx.flags ∧ Replaced s t k (s.npx.st 0)) ∧
      (s.npx.isEmpty 0 = true → t.npx.flags = s.npx.flags ||| flagI ∧
        (s.npx.cw.getLsbD 0 = true → Replaced s t k indefinite) ∧ (s.npx.cw.getLsbD 0 = false → StackKept s t))) ∧
    (∃ t, exec (.fstpSti p k) s = .next t ∧ NumericFrame (.fstpSti p k) s t ∧ SameMemory s t ∧
      (s.npx.isEmpty 0 = false → t.npx.flags = s.npx.flags ∧ ReplacedPopped s t k (s.npx.st 0)) ∧
      (s.npx.isEmpty 0 = true → t.npx.flags = s.npx.flags ||| flagI ∧
        (s.npx.cw.getLsbD 0 = true → ReplacedPopped s t k indefinite) ∧
        (s.npx.cw.getLsbD 0 = false → StackKept s t))) ∧
    (∃ t, exec (.fxchSti p k) s = .next t ∧ NumericFrame (.fxchSti p k) s t ∧ SameMemory s t ∧
      t.npx.top = s.npx.top ∧
      (∀ q, q ≠ s.npx.top → q ≠ s.npx.top + k → t.npx.reg q = s.npx.reg q ∧ t.npx.tag q = s.npx.tag q) ∧
      (s.npx.isEmpty 0 = false → s.npx.isEmpty k = false → t.npx.flags = s.npx.flags ∧
        t.npx.reg s.npx.top = s.npx.st k ∧ t.npx.reg (s.npx.top + k) = s.npx.st 0 ∧
        t.npx.tag s.npx.top = s.npx.tag (s.npx.top + k) ∧ t.npx.tag (s.npx.top + k) = s.npx.tag s.npx.top) ∧
      (s.npx.isEmpty 0 = true ∨ s.npx.isEmpty k = true → t.npx.flags = s.npx.flags ||| flagI ∧
        (s.npx.cw.getLsbD 0 = true →
          t.npx.reg s.npx.top = (if s.npx.isEmpty k then indefinite else s.npx.st k) ∧
          t.npx.reg (s.npx.top + k) = (if s.npx.isEmpty 0 then indefinite else s.npx.st 0)) ∧
        (s.npx.cw.getLsbD 0 = false → StackKept s t)))

/-- O48, tier 2. On a ready machine with an operand inside its segment FLD temporary real, FILD and FBLD give a next
state: with room the value of the operand is pushed with no flag; without, I is signalled, masked the real
indefinite is pushed, unmasked nothing changes. FLD short and long real do the same, but with room a denormal
signals D, masked it is pushed as the equivalent unnormal, unmasked nothing is. That FLD temporary real signals
no D for a denormal is the decision D20 of the spec, that a NaN loads without I its decision D14 (log 43,
PRESUMED). Rules: R161, R164, R165, R178, R181, R182, R183, R184. -/
def Obligations.MemoryLoads : Prop :=
  (∀ (i : Instr) (m : MemArg) (words : Nat) (f : Nat → Nat → TempReal) (s : State), loadForm i = some (m, words, f) →
    Ready s → OperandFits s i m words false →
    let v := f s.draws (leNat ((operandAddresses s i m (2 * words)).map s.mem.read))
    ∃ t, exec i s = .next t ∧ NumericFrame i s t ∧ SameMemory s t ∧ DataLatched i m s t ∧
      (s.npx.isEmpty 7 = true → t.npx.flags = s.npx.flags ∧ Pushed s t v) ∧
      (s.npx.isEmpty 7 = false → t.npx.flags = s.npx.flags ||| flagI ∧
        (s.npx.cw.getLsbD 0 = true → Pushed s t indefinite) ∧ (s.npx.cw.getLsbD 0 = false → StackKept s t))) ∧
  (∀ (i : Instr) (m : MemArg) (words : Nat) (f : RealFormat) (s : State), realLoadForm i = some (m, words, f) →
    Ready s → OperandFits s i m words false →
    let v := loadReal f (leNat ((operandAddresses s i m (2 * words)).map s.mem.read))
    ∃ t, exec i s = .next t ∧ NumericFrame i s t ∧ SameMemory s t ∧ DataLatched i m s t ∧
      (s.npx.isEmpty 7 = true → v.denormal = false → t.npx.flags = s.npx.flags ∧ Pushed s t v.value) ∧
      (s.npx.isEmpty 7 = true → v.denormal = true → t.npx.flags = s.npx.flags ||| flagD ∧
        (s.npx.cw.getLsbD 1 = true → Pushed s t v.value) ∧ (s.npx.cw.getLsbD 1 = false → StackKept s t)) ∧
      (s.npx.isEmpty 7 = false → t.npx.flags = s.npx.flags ||| flagI ∧
        (s.npx.cw.getLsbD 0 = true → Pushed s t indefinite) ∧ (s.npx.cw.getLsbD 0 = false → StackKept s t)))

/-- O49, tier 2. For every pattern of a short or long real, with sign s, exponent field e, fraction F and t fraction
bits: with e neither 0 nor all ones it loads as (-1)^s (2^t + F) 2^(e-bias-t); with e = 0 as (-1)^s F
2^(1-bias-t), a denormal exactly when F is not 0; with e all ones as an infinity for F = 0 and else as a NaN, of
sign s, the fraction kept at the left. If it is no denormal, storing the temporary real it loads as gives the
pattern back with no flag, whatever the control word. Rules: R64, R69, R166, R167. -/
def Obligations.RealFormatRoundTrip : Prop :=
  ∀ (cw : Word) (f : RealFormat) (v : Nat), (f = shortReal ∨ f = longReal) → v < 2 ^ (8 * f.bytes) →
    let t := f.prec - 1
    let e := v / 2 ^ t % 2 ^ f.ebits
    let frac := v % 2 ^ t
    let sign : ℚ := if v / 2 ^ (t + f.ebits) = 1 then -1 else 1
    let r := (loadReal f v).value
    ((loadReal f v).denormal = true ↔ e = 0 ∧ frac ≠ 0) ∧ (signOf r = true ↔ v / 2 ^ (t + f.ebits) = 1) ∧
    (e = 0 → regVal r = sign * frac * (2 : ℚ) ^ (1 - (f.bias : Int) - (t : Int))) ∧
    (e ≠ 0 → e ≠ 2 ^ f.ebits - 1 → classOf r = .normal ∧
      regVal r = sign * (2 ^ t + frac) * (2 : ℚ) ^ ((e : Int) - (f.bias : Int) - (t : Int))) ∧
    (e = 2 ^ f.ebits - 1 → (classOf r = if frac = 0 then .infinity else .nan) ∧
      sigOf r = 2 ^ 63 + frac * 2 ^ (63 - t)) ∧
    ((loadReal f v).denormal = false → storeReal cw f r = { flags := 0, value := some v })

/-- O50, tier 2. For widths 16, 32 and 64 every pattern of a binary integer is given back, with no flag, by storing
the temporary real it loads as; and that temporary real has the integer as its value. Rules: R61, R70, R176. -/
def Obligations.IntegerRoundTrip : Prop :=
  ∀ (cw : Word) (w v : Nat), (w = 16 ∨ w = 32 ∨ w = 64) → v < 2 ^ w →
    storeInt cw w (ofInt (intOf w v)) = { flags := 0, value := some v } ∧ regVal (ofInt (intOf w v)) = intOf w v

/-- O51, tier 2. Every packed decimal pattern with valid digits and zeros in its seven insignificant bits, negative
zero included, is given back with no flag by storing the temporary real it loads as. Rules: R62, R70, R178,
R180. -/
def Obligations.DecimalRoundTrip : Prop :=
  ∀ (cw : Word) (draw v : Nat), v < 2 ^ 80 → digitsValid 18 v = true → v / 2 ^ 72 % 128 = 0 →
    storeDecimal cw draw (loadDecimal draw v) = { flags := 0, value := some v }

/-- O52, tier 2. On a ready machine with an operand inside its segment these eleven stores give a next state: the
flags signalled are added; an unmasked exception that forbids the store leaves memory and stack as they were;
else the bytes of the number are at the operand's addresses, least significant first, every other byte of memory
reads as before, no register changes, and the popping forms pop. Rules: R171, R172, R174, R175, R177, R179,
R180, R100, R362. -/
def Obligations.MemoryStores : Prop :=
  ∀ (i : Instr) (m : MemArg) (words pops : Nat) (f : Nat → Word → TempReal → Out Nat) (s : State),
    storeForm i = some (m, words, pops, f) → Ready s → OperandFits s i m words true →
    let o := (s.npx.fetch 0).andThen (f s.draws s.npx.cw)
    ∃ t, exec i s = .next t ∧ NumericFrame i s t ∧ DataLatched i m s t ∧ t.npx.flags = s.npx.flags ||| o.flags ∧
      (o.value = none → SameMemory s t ∧ StackKept s t) ∧
      ∀ v, o.value = some v → SameMemoryOutside s t (operandAddresses s i m (2 * words)) ∧
        (s.mem.wf = true → Stored t (operandAddresses s i m (2 * words)) (leBytes (2 * words) v)) ∧
        ((pops = 0 ∧ StackKept s t) ∨ (pops = 1 ∧ Popped s t))

/-- O53, tier 2. Real stores, short and long, of a normal v with 2^l <= |v| < 2^(l+1): in range, |v| is rounded by
RC to the significand of the format, P alone being signalled, exactly when that changes it; if the rounded value
is too large, O, masked O and P and infinity or the largest finite number as RC has it; if l is below the
format, U, masked |v| rounded to the smallest spacing of the format and P exactly when that changes it; O and U
unmasked store nothing. An unnormal or pseudo zero with its exponent in range of the format signals I, masked
the real indefinite, below it the same as U above, above it the same as O (the decision D21 of the spec, log 33,
DEDUCED). A zero is stored as it is; an infinity, a NaN and a denormal with the fraction chopped, with no flag.
Integer stores of 16, 32 and 64 bits: a normal is rounded by RC to an integer; in range, tested after rounding
(the decision D22 of the spec), it is stored in two's complement, P alone being signalled, exactly when it
differs; out of range, infinite, NaN, denormal, unnormal or pseudo zero (the last against 60 R357, log 46,
DEDUCED) signals I, masked the pattern 80...0H; a zero is 0. FBSTP of a normal: |v| + 1/2 chopped, rounding the
magnitude (the decision D23 of the spec), its 18 digits under the sign of v with no flag, no P either (log 40,
DEDUCED), or above 10^18 - 1 signal I, masked the packed decimal indefinite; so does every other value but a
zero, which is 18 zeros under its sign. Rules: R166, R167, R168, R169, R176, R180, R361, R362, R80, R81. -/
def Obligations.StoresOutOfRange : Prop :=
  ∀ (cw : Word) (v : TempReal),
    let x := magVal (magOf v)
    let neg := signOf v
    let sign : ℚ := if neg then -1 else 1
    let l : Int := (expField v : Int) - 16383
    let loose : Prop := classOf v = .unnormal ∨ classOf v = .pseudoZero
    let special : Prop := classOf v = .infinity ∨ classOf v = .nan ∨ classOf v = .denormal
    (∀ f : RealFormat, f = shortReal ∨ f = longReal →
      let large : Out Nat := if masked cw flagO then
          { flags := flagO ||| flagP
            value := some (packMem f neg (if overflowToInfinity (rounding cw) neg then f.maxField else f.maxField - 1)
              (if overflowToInfinity (rounding cw) neg then 0 else 2 ^ (f.prec - 1) - 1)) }
        else { flags := flagO, value := none }
      (classOf v = .normal → 1 - (f.bias : Int) ≤ l →
        let unit : ℚ := (2 : ℚ) ^ (l - (f.prec : Int) + 1)
        ∃ k : Nat, RoundsTo (rounding cw) neg (x / unit) k ∧
          (k * unit < (2 : ℚ) ^ ((f.bias : Int) + 1) → ∃ w, w < 2 ^ (8 * f.bytes) ∧
            storeReal cw f v = { flags := if k * unit = x then 0 else flagP, value := some w } ∧
            regVal (loadReal f w).value = sign * (k * unit) ∧ (loadReal f w).denormal = false) ∧
          ((2 : ℚ) ^ ((f.bias : Int) + 1) ≤ k * unit → storeReal cw f v = large)) ∧
      (classOf v = .normal ∨ loose → l < 1 - (f.bias : Int) →
        let unit : ℚ := (2 : ℚ) ^ (2 - (f.bias : Int) - (f.prec : Int))
        (masked cw flagU = false → storeReal cw f v = { flags := flagU, value := none }) ∧
        (masked cw flagU = true → ∃ k w : Nat, RoundsTo (rounding cw) neg (x / unit) k ∧ w < 2 ^ (8 * f.bytes) ∧
          storeReal cw f v = { flags := flagU ||| (if k * unit = x then 0 else flagP), value := some w } ∧
          regVal (loadReal f w).value = sign * (k * unit) ∧ signOf (loadReal f w).value = neg)) ∧
      (loose → (f.bias : Int) < l → storeReal cw f v = large) ∧
      (classOf v = .zero → storeReal cw f v = { flags := 0, value := some (packMem f neg 0 0) }) ∧
      (special → storeReal cw f v =
        { flags := 0
          value := some (packMem f neg (if classOf v = .denormal then 0 else f.maxField)
            (sigOf v % 2 ^ 63 / 2 ^ (64 - f.prec))) })) ∧
    (loose → 16257 ≤ expField v → expField v ≤ 16510 →
      storeReal cw shortReal v = { flags := flagI, value := if cw.getLsbD 0 then some 0xFFC00000 else none }) ∧
    (loose → 15361 ≤ expField v → expField v ≤ 17406 →
      storeReal cw longReal v = { flags := flagI, value := if cw.getLsbD 0 then some 0xFFF8000000000000 else none }) ∧
    (∀ w : Nat, w = 16 ∨ w = 32 ∨ w = 64 →
      (classOf v = .normal → ∃ k : Nat, RoundsTo (rounding cw) neg x k ∧
        let n : Int := if neg then -(k : Int) else k
        if -(2 : Int) ^ (w - 1) ≤ n ∧ n < (2 : Int) ^ (w - 1) then
          ∃ u, u < 2 ^ w ∧ intOf w u = n ∧
            storeInt cw w v = { flags := if (k : ℚ) = x then 0 else flagP, value := some u }
        else storeInt cw w v = { flags := flagI, value := if cw.getLsbD 0 then some (2 ^ (w - 1)) else none }) ∧
      (special ∨ loose →
        storeInt cw w v = { flags := flagI, value := if cw.getLsbD 0 then some (2 ^ (w - 1)) else none }) ∧
      (classOf v = .zero → storeInt cw w v = { flags := 0, value := some 0 })) ∧
    (∀ draw : Nat,
      (classOf v = .normal →
        let n : Nat := ⌊x + 1 / 2⌋.toNat
        if n < 10 ^ 18 then
          ∃ u, u < 2 ^ 80 ∧ u / 2 ^ 72 = (if neg then 128 else 0) ∧ digitsValid 18 u = true ∧ ofDigits 18 u = n ∧
            storeDecimal cw draw v = { flags := 0, value := some u }
        else storeDecimal cw draw v =
          { flags := flagI, value := if cw.getLsbD 0 then some (decimalIndefinite draw) else none }) ∧
      (special ∨ loose → storeDecimal cw draw v =
        { flags := flagI, value := if cw.getLsbD 0 then some (decimalIndefinite draw) else none }) ∧
      (classOf v = .zero → storeDecimal cw draw v = { flags := 0, value := some (if neg then 2 ^ 79 else 0) }))

/-- O54, tier 2. FLDCW on a ready machine with its word inside its segment makes that word the control word, all 16
bits, and changes no other part of the NPX and no memory; FNSTCW and FNSTSW to memory and to AX, whatever ERROR
and BUSY, store the control word or the status word and change nothing in the NPX. Rules: R322, R323, R324,
R328, R316. -/
def Obligations.ControlWordTransfers : Prop :=
  ∀ (p : List Seg) (m : MemArg) (s : State),
    (Ready s → OperandFits s (.fldcwM2 p m) m 1 false →
      ∃ t, exec (.fldcwM2 p m) s = .next t ∧ OnlyIpMoves (.fldcwM2 p m) s t ∧ SameMemory s t ∧
        ∃ lo hi, (operandAddresses s (.fldcwM2 p m) m 2).map s.mem.read = [lo, hi] ∧
          t.npx = { s.npx with cw := hi ++ lo }) ∧
    (Passed s → OperandFits s (.fnstcwM2 p m) m 1 true →
      ∃ t, exec (.fnstcwM2 p m) s = .next t ∧ OnlyIpMoves (.fnstcwM2 p m) s t ∧ t.npx = s.npx ∧
        SameMemoryOutside s t (operandAddresses s (.fnstcwM2 p m) m 2) ∧
        (s.mem.wf = true → Stored t (operandAddresses s (.fnstcwM2 p m) m 2)
          [s.npx.cw.extractLsb' 0 8, s.npx.cw.extractLsb' 8 8])) ∧
    (Passed s → OperandFits s (.fnstswM2 p m) m 1 true →
      ∃ (w : Word) (t : State), exec (.fnstswM2 p m) s = .next t ∧ OnlyIpMoves (.fnstswM2 p m) s t ∧ t.npx = s.npx ∧
        (s.npx.busy = false → w = statusWord s.platform s.npx) ∧ (s.npx.busy = true → w.getLsbD 15 = true) ∧
        SameMemoryOutside s t (operandAddresses s (.fnstswM2 p m) m 2) ∧
        (s.mem.wf = true → Stored t (operandAddresses s (.fnstswM2 p m) m 2)
          [w.extractLsb' 0 8, w.extractLsb' 8 8])) ∧
    (Passed s →
      ∃ (w : Word) (t : State), exec (.fnstswAx p) s = .next t ∧ t.npx = s.npx ∧ SameMemory s t ∧
        t.platform = s.platform ∧
        t.cpu = { s.cpu with ax := w, ip := s.cpu.ip + BitVec.ofNat 16 (Instr.fnstswAx p).length } ∧
        (s.npx.busy = false → w = statusWord s.platform s.npx) ∧ (s.npx.busy = true → w.getLsbD 15 = true))

/-- O55, tier 2. FNINIT, whatever is in flight and whatever ERROR, sets the control word to 03FFH or 03BFH, TOP and
the flags to 0 and every tag to empty, leaves the NEU idle and ERROR inactive, and keeps registers, pointers and
PM; FNCLEX clears the six flags and nothing else; FSETPM on a ready machine sets PM and nothing else; FNENI and
FNDISI change nothing in the NPX. That FNINIT leaves the registers and memory as they are also while an
instruction is in flight, whose destination 45 R320 makes undefined, is the model's choice: the destination gets
its undefined value when interrupt 9 is taken (log 14, DESIGN CHOICE). Rules: R319, R320, R321, R325, R346. -/
def Obligations.ControlWithoutOperand : Prop :=
  ∀ (p : List Seg) (s : State),
    (Passed s → ∃ t, exec (.fninit p) s = .next t ∧ OnlyIpMoves (.fninit p) s t ∧ SameMemory s t ∧ PointersKept s t ∧
      (t.npx.cw = 0x03FF ∨ t.npx.cw = 0x03BF) ∧ t.npx.top = 0 ∧ t.npx.flags = 0 ∧ (∀ q, t.npx.tag q = .empty) ∧
      t.npx.regs = s.npx.regs ∧ t.npx.pm = s.npx.pm ∧ t.npx.busy = false ∧ t.error = false ∧
      t.npx.imagePending = s.npx.imagePending) ∧
    (Passed s → ∃ t, exec (.fnclex p) s = .next t ∧ OnlyIpMoves (.fnclex p) s t ∧ SameMemory s t ∧
      t.npx = { s.npx with flags := 0 } ∧ t.error = false) ∧
    (Ready s → ∃ t, exec (.fsetpm p) s = .next t ∧ OnlyIpMoves (.fsetpm p) s t ∧ SameMemory s t ∧
      t.npx = { s.npx with pm := true }) ∧
    (Passed s → ∃ t, exec (.fneni p) s = .next t ∧ OnlyIpMoves (.fneni p) s t ∧ SameMemory s t ∧ t.npx = s.npx) ∧
    (Passed s → ∃ t, exec (.fndisi p) s = .next t ∧ OnlyIpMoves (.fndisi p) s t ∧ SameMemory s t ∧ t.npx = s.npx)

/-- O56, tier 2. On an idle NPX, whatever ERROR, FNSTENV stores the seven words of the environment, control, status
and tag word and the pointers in the format of PM, and sets the six masks, so that ERROR is inactive, and
changes nothing else in the NPX but that an image is pending; FNSAVE stores the environment and, ten bytes each
from byte 14 on, ST(0) to ST(7), initializes as FNINIT does, keeps registers, pointers and PM, and an image is
pending. Every other byte of memory reads as before. That a Real-Address image of a pointer latched in Protected
mode shows selector times 16 plus offset is the model's choice (log 20). Rules: R326, R327, R335, R336, R441,
R46, R47. -/
def Obligations.ImageStores : Prop :=
  ∀ (p : List Seg) (m : MemArg) (s : State), Passed s → s.npx.busy = false →
    (OperandFits s (.fnstenvM14 p m) m 7 true →
      ∃ t, exec (.fnstenvM14 p m) s = .next t ∧ OnlyIpMoves (.fnstenvM14 p m) s t ∧
        t.npx = { s.npx with cw := s.npx.cw ||| 0x003F, imagePending := true } ∧ t.error = false ∧
        SameMemoryOutside s t (operandAddresses s (.fnstenvM14 p m) m 14) ∧
        (s.mem.wf = true → EnvironmentShown s.platform s.npx
          (wordOfBytes ((operandAddresses s (.fnstenvM14 p m) m 14).map t.mem.read)))) ∧
    (OperandFits s (.fnsaveM94 p m) m 47 true →
      ∃ t, exec (.fnsaveM94 p m) s = .next t ∧ OnlyIpMoves (.fnsaveM94 p m) s t ∧ PointersKept s t ∧
        t.npx.regs = s.npx.regs ∧ t.npx.pm = s.npx.pm ∧ t.npx.imagePending = true ∧
        (t.npx.cw = 0x03FF ∨ t.npx.cw = 0x03BF) ∧ t.npx.top = 0 ∧ t.npx.flags = 0 ∧
        (∀ q, t.npx.tag q = .empty) ∧ t.npx.busy = false ∧ t.error = false ∧
        SameMemoryOutside s t (operandAddresses s (.fnsaveM94 p m) m 94) ∧
        (s.mem.wf = true →
          let b := (operandAddresses s (.fnsaveM94 p m) m 94).map t.mem.read
          EnvironmentShown s.platform s.npx (wordOfBytes b) ∧ RegistersShown s.npx b))

/-- O57, tier 2. On a ready machine with the operand inside its segment FLDENV gives a next state with control word,
condition code, TOP, flags, tags and pointers as the seven words at the operand have them, the pointers and the
opcode read in the format of PM, the registers kept; FRSTOR does the same, and ST(i) under the TOP just loaded
is the ten bytes at 14 + 10 i. Both keep PM, memory and the host. The selector and offset a Real-Address image
gives are the model's form of the 20-bit address (log 20). Rules: R329, R337, R326, R336, R46, R47. -/
def Obligations.ImageLoads : Prop :=
  ∀ (p : List Seg) (m : MemArg) (s : State), Ready s →
    (OperandFits s (.fldenvM14 p m) m 7 false →
      ∃ t, exec (.fldenvM14 p m) s = .next t ∧ OnlyIpMoves (.fldenvM14 p m) s t ∧ SameMemory s t ∧
        t.npx.regs = s.npx.regs ∧ t.npx.pm = s.npx.pm ∧ t.npx.inFlight = none ∧ t.npx.imagePending = false ∧
        EnvironmentTaken s.npx t.npx (wordOfBytes ((operandAddresses s (.fldenvM14 p m) m 14).map s.mem.read))) ∧
    (OperandFits s (.frstorM94 p m) m 47 false →
      ∃ t, exec (.frstorM94 p m) s = .next t ∧ OnlyIpMoves (.frstorM94 p m) s t ∧ SameMemory s t ∧
        t.npx.pm = s.npx.pm ∧ t.npx.inFlight = none ∧ t.npx.imagePending = false ∧
        let b := (operandAddresses s (.frstorM94 p m) m 94).map s.mem.read
        EnvironmentTaken s.npx t.npx (wordOfBytes b) ∧ RegistersShown t.npx b)

/-- O58, tier 2. Restoring the image that FNSAVE writes of an idle NPX n into any NPX m of the same PM gives the
registers, tags, TOP, condition code, flags and control word of n; in Protected operation the pointers of n too;
in Real-Address operation its opcode and the 20-bit addresses of both its pointers. Nothing but PM need agree
between the two. That the 20-bit address of a pointer is its selector times 16 plus its offset, also for a
pointer latched while the CPU is in Protected mode, is the model's choice (log 20). Rules: R326, R329, R336,
R337, R46, R47. -/
def Obligations.StateImageRoundTrip : Prop :=
  ∀ (pl : Platform) (n m : Npx), m.pm = n.pm →
    let r := m.restore (bytesOfWords (environment pl n) ++ registerBytes n)
    r.regs = n.regs ∧ r.tags = n.tags ∧ r.top = n.top ∧ r.cc = n.cc ∧ r.flags = n.flags ∧ r.cw = n.cw ∧ r.pm = n.pm ∧
    (n.pm = true → r.fipSel = n.fipSel ∧ r.fipOff = n.fipOff ∧ r.fdpSel = n.fdpSel ∧ r.fdpOff = n.fdpOff) ∧
    (n.pm = false → r.fop = n.fop ∧
      (r.fipSel.toNat * 16 + r.fipOff.toNat) % 2 ^ 20 = (n.fipSel.toNat * 16 + n.fipOff.toNat) % 2 ^ 20 ∧
      (r.fdpSel.toNat * 16 + r.fdpOff.toNat) % 2 ^ 20 = (n.fdpSel.toNat * 16 + n.fdpOff.toNat) % 2 ^ 20)

/-- O59, tier 2. FINCSTP is D9 F7, FDECSTP D9 F6, FFREE ST(i) DD C0+i. On a ready machine: FINCSTP adds 1 to TOP and
FDECSTP subtracts 1, modulo 8, with no tag or register changed; FFREE ST(i) tags ST(i) empty with TOP, the
registers and the other tags kept; FNOP keeps all of them; none signals anything, not even on an empty ST. A
push decrements TOP modulo 8 and writes and tags the new ST, a pop tags the old ST empty, keeps its bits and
increments TOP; a push then a pop keeps TOP and every register but the one pushed. That these four latch the
pointers is the decision D9 of the spec (R44, R318). Rules: R338, R339, R340, R341, R13, R23, R44, R318. -/
def Obligations.StackHousekeeping : Prop :=
  encode (.fincstp []) = [0xD9, 0xF7] ∧ encode (.fdecstp []) = [0xD9, 0xF6] ∧
  (∀ k : RegNum, encode (.ffreeSti [] k) = [0xDD, 0xC0 + k.zeroExtend 8]) ∧
  (∀ (p : List Seg) (k : RegNum) (s : State), Ready s →
    (∃ t, exec (.fincstp p) s = .next t ∧ NumericFrame (.fincstp p) s t ∧ SameMemory s t ∧
      t.npx.flags = s.npx.flags ∧ t.npx.regs = s.npx.regs ∧ t.npx.tags = s.npx.tags ∧ t.npx.top = s.npx.top + 1) ∧
    (∃ t, exec (.fdecstp p) s = .next t ∧ NumericFrame (.fdecstp p) s t ∧ SameMemory s t ∧
      t.npx.flags = s.npx.flags ∧ t.npx.regs = s.npx.regs ∧ t.npx.tags = s.npx.tags ∧ t.npx.top = s.npx.top - 1) ∧
    (∃ t, exec (.ffreeSti p k) s = .next t ∧ NumericFrame (.ffreeSti p k) s t ∧ SameMemory s t ∧
      t.npx.flags = s.npx.flags ∧ t.npx.regs = s.npx.regs ∧ t.npx.top = s.npx.top ∧
      t.npx.tag (s.npx.top + k) = .empty ∧ ∀ q, q ≠ s.npx.top + k → t.npx.tag q = s.npx.tag q) ∧
    (∃ t, exec (.fnop p) s = .next t ∧ NumericFrame (.fnop p) s t ∧ SameMemory s t ∧ StackKept s t ∧
      t.npx.flags = s.npx.flags)) ∧
  ∀ (n : Npx) (v : TempReal),
    (n.pushValue v).top.toNat = (n.top.toNat + 7) % 8 ∧ (n.pushValue v).st 0 = v ∧
    (n.pushValue v).tag (n.pushValue v).top = tagOf v ∧
    (n.pop).top.toNat = (n.top.toNat + 1) % 8 ∧ (n.pop).tag n.top = .empty ∧ (n.pop).regs = n.regs ∧
    ((n.pushValue v).pop).top = n.top ∧ ∀ q, q ≠ n.top - 1 → ((n.pushValue v).pop).reg q = n.reg q

/-- O60, tier 1. ST(i) is the physical register of number (TOP + i) modulo 8, and ST is ST(0); on a ready machine
FINCSTP with TOP 7 gives TOP 0 and FDECSTP with TOP 0 gives TOP 7. Rules: R22. -/
def Obligations.StackRegisterNumbering : Prop :=
  ∀ (n : Npx) (i : RegNum),
    (n.phys i).toNat = (n.top.toNat + i.toNat) % 8 ∧ n.st i = n.reg (n.phys i) ∧ n.st 0 = n.reg n.top ∧
    ∀ (p : List Seg) (s : State), Ready s →
      (s.npx.top = 7 → ∃ t, exec (.fincstp p) s = .next t ∧ t.npx.top = 0) ∧
      (s.npx.top = 0 → ∃ t, exec (.fdecstp p) s = .next t ∧ t.npx.top = 7)
end

