-- ==== Sys2Proof/Laws/Memory.lean ====
section
/-! SUPPORT. The laws of memory: its canonical form is kept, and a read after a write. -/

namespace Sys2Proof.Machine

theorem cellsAbove_mono : ∀ (c : List Host.Cell) {l k : Nat}, k ≤ l → cellsAbove c l = true → cellsAbove c k = true
  | [], _, _, _, _ => rfl
  | (b, w) :: rest, l, k, hk, h => by
    simp only [cellsAbove, Bool.and_eq_true, decide_eq_true_eq] at h ⊢
    exact ⟨⟨Nat.le_trans hk h.1.1, h.1.2⟩, h.2⟩

theorem consCell_above {a : Nat} {v : Byte} {rest : List Host.Cell} {l : Nat} (hl : l ≤ a)
    (h : cellsAbove rest (a + 1) = true) : cellsAbove (consCell a v rest) l = true := by
  unfold consCell
  split
  · exact cellsAbove_mono rest (by omega) h
  · next hv => simp [cellsAbove, hl, hv, h]

theorem writeCells_above : ∀ (c : List Host.Cell) (a : Nat) (v : Byte) {l : Nat}, l ≤ a → cellsAbove c l = true →
    cellsAbove (writeCells c a v) l = true
  | [], a, v, l, hl, _ => consCell_above hl rfl
  | (b, w) :: rest, a, v, l, hl, h => by
    have h' := h
    simp only [cellsAbove, Bool.and_eq_true, decide_eq_true_eq] at h'
    unfold writeCells
    split
    · next hab =>
      refine consCell_above hl ?_
      simp only [cellsAbove, Bool.and_eq_true, decide_eq_true_eq]
      exact ⟨⟨hab, h'.1.2⟩, h'.2⟩
    · split
      · next hab => subst hab; exact consCell_above hl h'.2
      · simp only [cellsAbove, Bool.and_eq_true, decide_eq_true_eq]
        exact ⟨h'.1, writeCells_above rest a v (by omega) h'.2⟩

/-- A write keeps the canonical form. -/
theorem Memory.write_wf (m : Memory) (a : Nat) (v : Byte) (h : m.wf = true) : (m.write a v).wf = true :=
  writeCells_above m.cells a v (Nat.zero_le a) h

/-- Any number of writes keep the canonical form. -/
theorem Memory.writeAll_wf : ∀ (l : List (Nat × Byte)) (m : Memory), m.wf = true → (m.writeAll l).wf = true
  | [], _, h => h
  | (a, v) :: rest, m, h => Memory.writeAll_wf rest (m.write a v) (Memory.write_wf m a v h)

/-- The canonical form in words: an entry is above the bound and does not hold the unlisted byte. -/
theorem readCells_below : ∀ (c : List Host.Cell) {a l : Nat}, a < l → cellsAbove c l = true →
    readCells c a = Memory.unlisted
  | [], _, _, _, _ => rfl
  | (b, w) :: rest, a, l, ha, h => by
    simp only [cellsAbove, Bool.and_eq_true, decide_eq_true_eq] at h
    have : a ≠ b := by omega
    simp only [readCells, this, if_false]
    exact readCells_below rest (by omega) h.2

theorem readCells_consCell_same {a : Nat} {v : Byte} {rest : List Host.Cell} (h : cellsAbove rest (a + 1) = true) :
    readCells (consCell a v rest) a = v := by
  unfold consCell
  split
  · next hv => rw [readCells_below rest (Nat.lt_succ_self a) h, hv]
  · simp [readCells]

theorem readCells_consCell_other {a b : Nat} {v : Byte} {rest : List Host.Cell} (h : b ≠ a) :
    readCells (consCell a v rest) b = readCells rest b := by
  unfold consCell
  split
  · rfl
  · simp [readCells, h]

theorem readCells_write_same : ∀ (c : List Host.Cell) (a : Nat) (v : Byte) {l : Nat}, cellsAbove c l = true →
    readCells (writeCells c a v) a = v
  | [], a, v, _, _ => readCells_consCell_same rfl
  | (b, w) :: rest, a, v, l, h => by
    have h' := h
    simp only [cellsAbove, Bool.and_eq_true, decide_eq_true_eq] at h'
    unfold writeCells
    split
    · next hab =>
      refine readCells_consCell_same ?_
      simp only [cellsAbove, Bool.and_eq_true, decide_eq_true_eq]
      exact ⟨⟨hab, h'.1.2⟩, h'.2⟩
    · split
      · next hab => subst hab; exact readCells_consCell_same h'.2
      · next hab =>
        simp only [readCells, hab, if_false]
        exact readCells_write_same rest a v h'.2

theorem readCells_write_other : ∀ (c : List Host.Cell) (a b : Nat) (v : Byte), b ≠ a →
    readCells (writeCells c a v) b = readCells c b
  | [], _, _, _, h => readCells_consCell_other h
  | (x, w) :: rest, a, b, v, h => by
    unfold writeCells
    split
    · exact readCells_consCell_other h
    · split
      · next hab => subst hab; rw [readCells_consCell_other h]; simp [readCells, h]
      · simp only [readCells]
        split
        · rfl
        · exact readCells_write_other rest a b v h

/-- A read after a write to the same address gives the byte written. -/
theorem Memory.read_write_same (m : Memory) (a : Nat) (v : Byte) (h : m.wf = true) : (m.write a v).read a = v :=
  readCells_write_same m.cells a v h

/-- A write leaves every other address alone. -/
theorem Memory.read_write_other (m : Memory) (a b : Nat) (v : Byte) (h : b ≠ a) : (m.write a v).read b = m.read b :=
  readCells_write_other m.cells a b v h

/-- Writes leave every address alone that they do not name. -/
theorem Memory.read_writeAll_other : ∀ (l : List (Nat × Byte)) (m : Memory) (b : Nat), (∀ x ∈ l, x.1 ≠ b) →
    (m.writeAll l).read b = m.read b
  | [], _, _, _ => rfl
  | (a, v) :: rest, m, b, h => by
    rw [Memory.writeAll, Memory.read_writeAll_other rest (m.write a v) b fun x hx => h x (List.mem_cons_of_mem _ hx)]
    exact Memory.read_write_other m a b v (h (a, v) (List.mem_cons_self ..)).symm

/-- Bytes stored through a segment leave every address alone that is not among theirs. -/
theorem State.read_storeBytes_other (s : State) (g : SegReg) (off : Word) (bytes : List Byte) (b : Nat)
    (h : b ∉ s.addresses g off bytes.length) : (s.storeBytes g off bytes).mem.read b = s.mem.read b := by
  refine Memory.read_writeAll_other _ _ _ fun x hx e => h ?_
  exact e ▸ (List.of_mem_zip hx).1

/-- Storing through a segment keeps the canonical form. -/
theorem State.storeBytes_wf (s : State) (g : SegReg) (off : Word) (bytes : List Byte) (h : s.mem.wf = true) :
    (s.storeBytes g off bytes).mem.wf = true := Memory.writeAll_wf _ _ h

end Sys2Proof.Machine
end

