-- ==== Sys2Proof/Laws/State.lean ====
section
/-! SUPPORT. One lemma per field per update, so that no proof unfolds a record update. -/

namespace Sys2Proof.Machine

@[simp] theorem Npx.setTag_regs (n : Npx) (p : RegNum) (v : Tag) : (n.setTag p v).regs = n.regs := rfl
@[simp] theorem Npx.setTag_tags (n : Npx) (p : RegNum) (v : Tag) : (n.setTag p v).tags = n.tags.set p.toNat v p.isLt := rfl
@[simp] theorem Npx.setTag_top (n : Npx) (p : RegNum) (v : Tag) : (n.setTag p v).top = n.top := rfl
@[simp] theorem Npx.setTag_cc (n : Npx) (p : RegNum) (v : Tag) : (n.setTag p v).cc = n.cc := rfl
@[simp] theorem Npx.setTag_flags (n : Npx) (p : RegNum) (v : Tag) : (n.setTag p v).flags = n.flags := rfl
@[simp] theorem Npx.setTag_cw (n : Npx) (p : RegNum) (v : Tag) : (n.setTag p v).cw = n.cw := rfl
@[simp] theorem Npx.setTag_fipSel (n : Npx) (p : RegNum) (v : Tag) : (n.setTag p v).fipSel = n.fipSel := rfl
@[simp] theorem Npx.setTag_fipOff (n : Npx) (p : RegNum) (v : Tag) : (n.setTag p v).fipOff = n.fipOff := rfl
@[simp] theorem Npx.setTag_fdpSel (n : Npx) (p : RegNum) (v : Tag) : (n.setTag p v).fdpSel = n.fdpSel := rfl
@[simp] theorem Npx.setTag_fdpOff (n : Npx) (p : RegNum) (v : Tag) : (n.setTag p v).fdpOff = n.fdpOff := rfl
@[simp] theorem Npx.setTag_fop (n : Npx) (p : RegNum) (v : Tag) : (n.setTag p v).fop = n.fop := rfl
@[simp] theorem Npx.setTag_pm (n : Npx) (p : RegNum) (v : Tag) : (n.setTag p v).pm = n.pm := rfl
@[simp] theorem Npx.setTag_inFlight (n : Npx) (p : RegNum) (v : Tag) : (n.setTag p v).inFlight = n.inFlight := rfl
@[simp] theorem Npx.setTag_imagePending (n : Npx) (p : RegNum) (v : Tag) : (n.setTag p v).imagePending = n.imagePending := rfl

@[simp] theorem Npx.setReg_regs (n : Npx) (p : RegNum) (v : TempReal) : (n.setReg p v).regs = n.regs.set p.toNat v p.isLt := rfl
@[simp] theorem Npx.setReg_tags (n : Npx) (p : RegNum) (v : TempReal) : (n.setReg p v).tags = n.tags.set p.toNat (tagOf v) p.isLt := rfl
@[simp] theorem Npx.setReg_top (n : Npx) (p : RegNum) (v : TempReal) : (n.setReg p v).top = n.top := rfl
@[simp] theorem Npx.setReg_cc (n : Npx) (p : RegNum) (v : TempReal) : (n.setReg p v).cc = n.cc := rfl
@[simp] theorem Npx.setReg_flags (n : Npx) (p : RegNum) (v : TempReal) : (n.setReg p v).flags = n.flags := rfl
@[simp] theorem Npx.setReg_cw (n : Npx) (p : RegNum) (v : TempReal) : (n.setReg p v).cw = n.cw := rfl
@[simp] theorem Npx.setReg_fipSel (n : Npx) (p : RegNum) (v : TempReal) : (n.setReg p v).fipSel = n.fipSel := rfl
@[simp] theorem Npx.setReg_fipOff (n : Npx) (p : RegNum) (v : TempReal) : (n.setReg p v).fipOff = n.fipOff := rfl
@[simp] theorem Npx.setReg_fdpSel (n : Npx) (p : RegNum) (v : TempReal) : (n.setReg p v).fdpSel = n.fdpSel := rfl
@[simp] theorem Npx.setReg_fdpOff (n : Npx) (p : RegNum) (v : TempReal) : (n.setReg p v).fdpOff = n.fdpOff := rfl
@[simp] theorem Npx.setReg_fop (n : Npx) (p : RegNum) (v : TempReal) : (n.setReg p v).fop = n.fop := rfl
@[simp] theorem Npx.setReg_pm (n : Npx) (p : RegNum) (v : TempReal) : (n.setReg p v).pm = n.pm := rfl
@[simp] theorem Npx.setReg_inFlight (n : Npx) (p : RegNum) (v : TempReal) : (n.setReg p v).inFlight = n.inFlight := rfl
@[simp] theorem Npx.setReg_imagePending (n : Npx) (p : RegNum) (v : TempReal) : (n.setReg p v).imagePending = n.imagePending := rfl

@[simp] theorem Npx.setSt_regs (n : Npx) (i : RegNum) (v : TempReal) : (n.setSt i v).regs = n.regs.set (n.top + i).toNat v (n.top + i).isLt := rfl
@[simp] theorem Npx.setSt_tags (n : Npx) (i : RegNum) (v : TempReal) : (n.setSt i v).tags = n.tags.set (n.top + i).toNat (tagOf v) (n.top + i).isLt := rfl
@[simp] theorem Npx.setSt_top (n : Npx) (i : RegNum) (v : TempReal) : (n.setSt i v).top = n.top := rfl
@[simp] theorem Npx.setSt_cc (n : Npx) (i : RegNum) (v : TempReal) : (n.setSt i v).cc = n.cc := rfl
@[simp] theorem Npx.setSt_flags (n : Npx) (i : RegNum) (v : TempReal) : (n.setSt i v).flags = n.flags := rfl
@[simp] theorem Npx.setSt_cw (n : Npx) (i : RegNum) (v : TempReal) : (n.setSt i v).cw = n.cw := rfl
@[simp] theorem Npx.setSt_fipSel (n : Npx) (i : RegNum) (v : TempReal) : (n.setSt i v).fipSel = n.fipSel := rfl
@[simp] theorem Npx.setSt_fipOff (n : Npx) (i : RegNum) (v : TempReal) : (n.setSt i v).fipOff = n.fipOff := rfl
@[simp] theorem Npx.setSt_fdpSel (n : Npx) (i : RegNum) (v : TempReal) : (n.setSt i v).fdpSel = n.fdpSel := rfl
@[simp] theorem Npx.setSt_fdpOff (n : Npx) (i : RegNum) (v : TempReal) : (n.setSt i v).fdpOff = n.fdpOff := rfl
@[simp] theorem Npx.setSt_fop (n : Npx) (i : RegNum) (v : TempReal) : (n.setSt i v).fop = n.fop := rfl
@[simp] theorem Npx.setSt_pm (n : Npx) (i : RegNum) (v : TempReal) : (n.setSt i v).pm = n.pm := rfl
@[simp] theorem Npx.setSt_inFlight (n : Npx) (i : RegNum) (v : TempReal) : (n.setSt i v).inFlight = n.inFlight := rfl
@[simp] theorem Npx.setSt_imagePending (n : Npx) (i : RegNum) (v : TempReal) : (n.setSt i v).imagePending = n.imagePending := rfl

@[simp] theorem Npx.pushValue_regs (n : Npx) (v : TempReal) : (n.pushValue v).regs = n.regs.set (n.top - 1).toNat v (n.top - 1).isLt := rfl
@[simp] theorem Npx.pushValue_tags (n : Npx) (v : TempReal) : (n.pushValue v).tags = n.tags.set (n.top - 1).toNat (tagOf v) (n.top - 1).isLt := rfl
@[simp] theorem Npx.pushValue_top (n : Npx) (v : TempReal) : (n.pushValue v).top = n.top - 1 := rfl
@[simp] theorem Npx.pushValue_cc (n : Npx) (v : TempReal) : (n.pushValue v).cc = n.cc := rfl
@[simp] theorem Npx.pushValue_flags (n : Npx) (v : TempReal) : (n.pushValue v).flags = n.flags := rfl
@[simp] theorem Npx.pushValue_cw (n : Npx) (v : TempReal) : (n.pushValue v).cw = n.cw := rfl
@[simp] theorem Npx.pushValue_fipSel (n : Npx) (v : TempReal) : (n.pushValue v).fipSel = n.fipSel := rfl
@[simp] theorem Npx.pushValue_fipOff (n : Npx) (v : TempReal) : (n.pushValue v).fipOff = n.fipOff := rfl
@[simp] theorem Npx.pushValue_fdpSel (n : Npx) (v : TempReal) : (n.pushValue v).fdpSel = n.fdpSel := rfl
@[simp] theorem Npx.pushValue_fdpOff (n : Npx) (v : TempReal) : (n.pushValue v).fdpOff = n.fdpOff := rfl
@[simp] theorem Npx.pushValue_fop (n : Npx) (v : TempReal) : (n.pushValue v).fop = n.fop := rfl
@[simp] theorem Npx.pushValue_pm (n : Npx) (v : TempReal) : (n.pushValue v).pm = n.pm := rfl
@[simp] theorem Npx.pushValue_inFlight (n : Npx) (v : TempReal) : (n.pushValue v).inFlight = n.inFlight := rfl
@[simp] theorem Npx.pushValue_imagePending (n : Npx) (v : TempReal) : (n.pushValue v).imagePending = n.imagePending := rfl

@[simp] theorem Npx.pop_regs (n : Npx) : n.pop.regs = n.regs := rfl
@[simp] theorem Npx.pop_tags (n : Npx) : n.pop.tags = n.tags.set n.top.toNat .empty n.top.isLt := rfl
@[simp] theorem Npx.pop_top (n : Npx) : n.pop.top = n.top + 1 := rfl
@[simp] theorem Npx.pop_cc (n : Npx) : n.pop.cc = n.cc := rfl
@[simp] theorem Npx.pop_flags (n : Npx) : n.pop.flags = n.flags := rfl
@[simp] theorem Npx.pop_cw (n : Npx) : n.pop.cw = n.cw := rfl
@[simp] theorem Npx.pop_fipSel (n : Npx) : n.pop.fipSel = n.fipSel := rfl
@[simp] theorem Npx.pop_fipOff (n : Npx) : n.pop.fipOff = n.fipOff := rfl
@[simp] theorem Npx.pop_fdpSel (n : Npx) : n.pop.fdpSel = n.fdpSel := rfl
@[simp] theorem Npx.pop_fdpOff (n : Npx) : n.pop.fdpOff = n.fdpOff := rfl
@[simp] theorem Npx.pop_fop (n : Npx) : n.pop.fop = n.fop := rfl
@[simp] theorem Npx.pop_pm (n : Npx) : n.pop.pm = n.pm := rfl
@[simp] theorem Npx.pop_inFlight (n : Npx) : n.pop.inFlight = n.inFlight := rfl
@[simp] theorem Npx.pop_imagePending (n : Npx) : n.pop.imagePending = n.imagePending := rfl

@[simp] theorem Npx.raise_regs (n : Npx) (f : Flags) : (n.raise f).regs = n.regs := rfl
@[simp] theorem Npx.raise_tags (n : Npx) (f : Flags) : (n.raise f).tags = n.tags := rfl
@[simp] theorem Npx.raise_top (n : Npx) (f : Flags) : (n.raise f).top = n.top := rfl
@[simp] theorem Npx.raise_cc (n : Npx) (f : Flags) : (n.raise f).cc = n.cc := rfl
@[simp] theorem Npx.raise_flags (n : Npx) (f : Flags) : (n.raise f).flags = n.flags ||| f := rfl
@[simp] theorem Npx.raise_cw (n : Npx) (f : Flags) : (n.raise f).cw = n.cw := rfl
@[simp] theorem Npx.raise_fipSel (n : Npx) (f : Flags) : (n.raise f).fipSel = n.fipSel := rfl
@[simp] theorem Npx.raise_fipOff (n : Npx) (f : Flags) : (n.raise f).fipOff = n.fipOff := rfl
@[simp] theorem Npx.raise_fdpSel (n : Npx) (f : Flags) : (n.raise f).fdpSel = n.fdpSel := rfl
@[simp] theorem Npx.raise_fdpOff (n : Npx) (f : Flags) : (n.raise f).fdpOff = n.fdpOff := rfl
@[simp] theorem Npx.raise_fop (n : Npx) (f : Flags) : (n.raise f).fop = n.fop := rfl
@[simp] theorem Npx.raise_pm (n : Npx) (f : Flags) : (n.raise f).pm = n.pm := rfl
@[simp] theorem Npx.raise_inFlight (n : Npx) (f : Flags) : (n.raise f).inFlight = n.inFlight := rfl
@[simp] theorem Npx.raise_imagePending (n : Npx) (f : Flags) : (n.raise f).imagePending = n.imagePending := rfl

@[simp] theorem Npx.latch_regs (n : Npx) (i : Instr) (a b c d : Word) (k : BitVec 4) : (n.latch i a b c d k).regs = n.regs := rfl
@[simp] theorem Npx.latch_tags (n : Npx) (i : Instr) (a b c d : Word) (k : BitVec 4) : (n.latch i a b c d k).tags = n.tags := rfl
@[simp] theorem Npx.latch_top (n : Npx) (i : Instr) (a b c d : Word) (k : BitVec 4) : (n.latch i a b c d k).top = n.top := rfl
@[simp] theorem Npx.latch_cc (n : Npx) (i : Instr) (a b c d : Word) (k : BitVec 4) : (n.latch i a b c d k).cc = k := rfl
@[simp] theorem Npx.latch_flags (n : Npx) (i : Instr) (a b c d : Word) (k : BitVec 4) : (n.latch i a b c d k).flags = n.flags := rfl
@[simp] theorem Npx.latch_cw (n : Npx) (i : Instr) (a b c d : Word) (k : BitVec 4) : (n.latch i a b c d k).cw = n.cw := rfl
@[simp] theorem Npx.latch_fipSel (n : Npx) (i : Instr) (a b c d : Word) (k : BitVec 4) : (n.latch i a b c d k).fipSel = a := rfl
@[simp] theorem Npx.latch_fipOff (n : Npx) (i : Instr) (a b c d : Word) (k : BitVec 4) : (n.latch i a b c d k).fipOff = b := rfl
@[simp] theorem Npx.latch_fdpSel (n : Npx) (i : Instr) (a b c d : Word) (k : BitVec 4) : (n.latch i a b c d k).fdpSel = c := rfl
@[simp] theorem Npx.latch_fdpOff (n : Npx) (i : Instr) (a b c d : Word) (k : BitVec 4) : (n.latch i a b c d k).fdpOff = d := rfl
@[simp] theorem Npx.latch_fop (n : Npx) (i : Instr) (a b c d : Word) (k : BitVec 4) : (n.latch i a b c d k).fop = i.opcode := rfl
@[simp] theorem Npx.latch_pm (n : Npx) (i : Instr) (a b c d : Word) (k : BitVec 4) : (n.latch i a b c d k).pm = n.pm := rfl
@[simp] theorem Npx.latch_inFlight (n : Npx) (i : Instr) (a b c d : Word) (k : BitVec 4) : (n.latch i a b c d k).inFlight = n.inFlight := rfl
@[simp] theorem Npx.latch_imagePending (n : Npx) (i : Instr) (a b c d : Word) (k : BitVec 4) : (n.latch i a b c d k).imagePending = n.imagePending := rfl

@[simp] theorem Npx.init_regs (n : Npx) (d : Nat) : (n.init d).regs = n.regs := rfl
@[simp] theorem Npx.init_tags (n : Npx) (d : Nat) : (n.init d).tags = Vector.replicate 8 .empty := rfl
@[simp] theorem Npx.init_top (n : Npx) (d : Nat) : (n.init d).top = 0 := rfl
@[simp] theorem Npx.init_cc (n : Npx) (d : Nat) : (n.init d).cc = Config.freeCC d := rfl
@[simp] theorem Npx.init_flags (n : Npx) (d : Nat) : (n.init d).flags = 0 := rfl
@[simp] theorem Npx.init_cw (n : Npx) (d : Nat) : (n.init d).cw = initialCw d := rfl
@[simp] theorem Npx.init_fipSel (n : Npx) (d : Nat) : (n.init d).fipSel = n.fipSel := rfl
@[simp] theorem Npx.init_fipOff (n : Npx) (d : Nat) : (n.init d).fipOff = n.fipOff := rfl
@[simp] theorem Npx.init_fdpSel (n : Npx) (d : Nat) : (n.init d).fdpSel = n.fdpSel := rfl
@[simp] theorem Npx.init_fdpOff (n : Npx) (d : Nat) : (n.init d).fdpOff = n.fdpOff := rfl
@[simp] theorem Npx.init_fop (n : Npx) (d : Nat) : (n.init d).fop = n.fop := rfl
@[simp] theorem Npx.init_pm (n : Npx) (d : Nat) : (n.init d).pm = n.pm := rfl
@[simp] theorem Npx.init_inFlight (n : Npx) (d : Nat) : (n.init d).inFlight = none := rfl
@[simp] theorem Npx.init_imagePending (n : Npx) (d : Nat) : (n.init d).imagePending = n.imagePending := rfl

@[simp] theorem Npx.maskAll_regs (n : Npx) : n.maskAll.regs = n.regs := rfl
@[simp] theorem Npx.maskAll_tags (n : Npx) : n.maskAll.tags = n.tags := rfl
@[simp] theorem Npx.maskAll_top (n : Npx) : n.maskAll.top = n.top := rfl
@[simp] theorem Npx.maskAll_cc (n : Npx) : n.maskAll.cc = n.cc := rfl
@[simp] theorem Npx.maskAll_flags (n : Npx) : n.maskAll.flags = n.flags := rfl
@[simp] theorem Npx.maskAll_cw (n : Npx) : n.maskAll.cw = n.cw ||| 0x003F := rfl
@[simp] theorem Npx.maskAll_fipSel (n : Npx) : n.maskAll.fipSel = n.fipSel := rfl
@[simp] theorem Npx.maskAll_fipOff (n : Npx) : n.maskAll.fipOff = n.fipOff := rfl
@[simp] theorem Npx.maskAll_fdpSel (n : Npx) : n.maskAll.fdpSel = n.fdpSel := rfl
@[simp] theorem Npx.maskAll_fdpOff (n : Npx) : n.maskAll.fdpOff = n.fdpOff := rfl
@[simp] theorem Npx.maskAll_fop (n : Npx) : n.maskAll.fop = n.fop := rfl
@[simp] theorem Npx.maskAll_pm (n : Npx) : n.maskAll.pm = n.pm := rfl
@[simp] theorem Npx.maskAll_inFlight (n : Npx) : n.maskAll.inFlight = n.inFlight := rfl
@[simp] theorem Npx.maskAll_imagePending (n : Npx) : n.maskAll.imagePending = n.imagePending := rfl

@[simp] theorem State.advance_npx (s : State) (i : Instr) : (s.advance i).npx = s.npx := rfl
@[simp] theorem State.advance_cpu (s : State) (i : Instr) : (s.advance i).cpu = { s.cpu with ip := s.cpu.ip + BitVec.ofNat 16 i.length } := rfl
@[simp] theorem State.advance_mem (s : State) (i : Instr) : (s.advance i).mem = s.mem := rfl
@[simp] theorem State.advance_platform (s : State) (i : Instr) : (s.advance i).platform = s.platform := rfl
@[simp] theorem State.advance_draws (s : State) (i : Instr) : (s.advance i).draws = s.draws := rfl

@[simp] theorem State.drawn_npx (s : State) : s.drawn.npx = s.npx := rfl
@[simp] theorem State.drawn_cpu (s : State) : s.drawn.cpu = s.cpu := rfl
@[simp] theorem State.drawn_mem (s : State) : s.drawn.mem = s.mem := rfl
@[simp] theorem State.drawn_platform (s : State) : s.drawn.platform = s.platform := rfl
@[simp] theorem State.drawn_draws (s : State) : s.drawn.draws = s.draws + 1 := rfl

@[simp] theorem State.finish_npx (s : State) (i : Instr) (n : Npx) : (s.finish i n).npx = n := rfl
@[simp] theorem State.finish_cpu (s : State) (i : Instr) (n : Npx) : (s.finish i n).cpu = { s.cpu with ip := s.cpu.ip + BitVec.ofNat 16 i.length } := rfl
@[simp] theorem State.finish_mem (s : State) (i : Instr) (n : Npx) : (s.finish i n).mem = s.mem := rfl
@[simp] theorem State.finish_platform (s : State) (i : Instr) (n : Npx) : (s.finish i n).platform = s.platform := rfl
@[simp] theorem State.finish_draws (s : State) (i : Instr) (n : Npx) : (s.finish i n).draws = s.draws + 1 := rfl

@[simp] theorem State.storeBytes_npx (s : State) (g : SegReg) (a : Word) (b : List Byte) : (s.storeBytes g a b).npx = s.npx := rfl
@[simp] theorem State.storeBytes_cpu (s : State) (g : SegReg) (a : Word) (b : List Byte) : (s.storeBytes g a b).cpu = s.cpu := rfl
@[simp] theorem State.storeBytes_mem (s : State) (g : SegReg) (a : Word) (b : List Byte) : (s.storeBytes g a b).mem = s.mem.writeAll ((s.addresses g a b.length).zip b) := rfl
@[simp] theorem State.storeBytes_platform (s : State) (g : SegReg) (a : Word) (b : List Byte) : (s.storeBytes g a b).platform = s.platform := rfl
@[simp] theorem State.storeBytes_draws (s : State) (g : SegReg) (a : Word) (b : List Byte) : (s.storeBytes g a b).draws = s.draws := rfl

@[simp] theorem State.storeOperand_npx (s : State) (i : Instr) (m : MemArg) (b : List Byte) : (s.storeOperand i m b).npx = s.npx := rfl
@[simp] theorem State.storeOperand_cpu (s : State) (i : Instr) (m : MemArg) (b : List Byte) : (s.storeOperand i m b).cpu = s.cpu := rfl
@[simp] theorem State.storeOperand_mem (s : State) (i : Instr) (m : MemArg) (b : List Byte) : (s.storeOperand i m b).mem = s.mem.writeAll ((s.addresses (s.operandSegment i m) (s.operandOffset m) b.length).zip b) := rfl
@[simp] theorem State.storeOperand_platform (s : State) (i : Instr) (m : MemArg) (b : List Byte) : (s.storeOperand i m b).platform = s.platform := rfl
@[simp] theorem State.storeOperand_draws (s : State) (i : Instr) (m : MemArg) (b : List Byte) : (s.storeOperand i m b).draws = s.draws := rfl

@[simp] theorem State.pushWord_npx (s : State) (w : Word) : (s.pushWord w).npx = s.npx := rfl
@[simp] theorem State.pushWord_cpu (s : State) (w : Word) : (s.pushWord w).cpu = { s.cpu with sp := s.cpu.sp - 2 } := rfl
@[simp] theorem State.pushWord_mem (s : State) (w : Word) : (s.pushWord w).mem = s.mem.writeAll ((s.addresses s.cpu.ss (s.cpu.sp - 2) 2).zip [lowByte w, highByte w]) := rfl
@[simp] theorem State.pushWord_platform (s : State) (w : Word) : (s.pushWord w).platform = s.platform := rfl
@[simp] theorem State.pushWord_draws (s : State) (w : Word) : (s.pushWord w).draws = s.draws := rfl

@[simp] theorem State.enter_npx (s : State) (g : SegReg) (e : Word) : (s.enter g e).npx = s.npx := rfl
@[simp] theorem State.enter_cpu (s : State) (g : SegReg) (e : Word) : (s.enter g e).cpu = { s.cpu with cs := g, ip := e, flags := s.cpu.flags &&& ~~~flagIF } := rfl
@[simp] theorem State.enter_mem (s : State) (g : SegReg) (e : Word) : (s.enter g e).mem = s.mem := rfl
@[simp] theorem State.enter_platform (s : State) (g : SegReg) (e : Word) : (s.enter g e).platform = s.platform := rfl
@[simp] theorem State.enter_draws (s : State) (g : SegReg) (e : Word) : (s.enter g e).draws = s.draws := rfl

@[simp] theorem State.pushLink_npx (s : State) (a b : Word) : (s.pushLink a b).npx = s.npx := rfl
@[simp] theorem State.pushLink_cpu (s : State) (a b : Word) : (s.pushLink a b).cpu = { s.cpu with sp := s.cpu.sp - 2 - 2 - 2 } := rfl
@[simp] theorem State.pushLink_platform (s : State) (a b : Word) : (s.pushLink a b).platform = s.platform := rfl
@[simp] theorem State.pushLink_draws (s : State) (a b : Word) : (s.pushLink a b).draws = s.draws := rfl

/-! ## Registers and tags after an update -/

@[simp] theorem Npx.reg_setReg_same (n : Npx) (p : RegNum) (v : TempReal) : (n.setReg p v).reg p = v := by
  simp [Npx.reg]

theorem Npx.reg_setReg_other (n : Npx) (p q : RegNum) (v : TempReal) (h : q ≠ p) : (n.setReg p v).reg q = n.reg q := by
  have : p.toNat ≠ q.toNat := fun e => h (BitVec.eq_of_toNat_eq e.symm)
  simp [Npx.reg, this]

@[simp] theorem Npx.tag_setReg_same (n : Npx) (p : RegNum) (v : TempReal) : (n.setReg p v).tag p = tagOf v := by
  simp [Npx.tag]

theorem Npx.tag_setReg_other (n : Npx) (p q : RegNum) (v : TempReal) (h : q ≠ p) : (n.setReg p v).tag q = n.tag q := by
  have : p.toNat ≠ q.toNat := fun e => h (BitVec.eq_of_toNat_eq e.symm)
  simp [Npx.tag, this]

@[simp] theorem Npx.tag_setTag_same (n : Npx) (p : RegNum) (t : Tag) : (n.setTag p t).tag p = t := by
  simp [Npx.tag]

theorem Npx.tag_setTag_other (n : Npx) (p q : RegNum) (t : Tag) (h : q ≠ p) : (n.setTag p t).tag q = n.tag q := by
  have : p.toNat ≠ q.toNat := fun e => h (BitVec.eq_of_toNat_eq e.symm)
  simp [Npx.tag, this]

@[simp] theorem Npx.reg_setTag (n : Npx) (p q : RegNum) (t : Tag) : (n.setTag p t).reg q = n.reg q := rfl
@[simp] theorem Npx.reg_raise (n : Npx) (f : Flags) (q : RegNum) : (n.raise f).reg q = n.reg q := rfl
@[simp] theorem Npx.tag_raise (n : Npx) (f : Flags) (q : RegNum) : (n.raise f).tag q = n.tag q := rfl
@[simp] theorem Npx.reg_pop (n : Npx) (q : RegNum) : n.pop.reg q = n.reg q := rfl
@[simp] theorem Npx.tag_pop_top (n : Npx) : n.pop.tag n.top = .empty := Npx.tag_setTag_same n n.top .empty
theorem Npx.tag_pop_other (n : Npx) (q : RegNum) (h : q ≠ n.top) : n.pop.tag q = n.tag q :=
  Npx.tag_setTag_other n n.top q .empty h
@[simp] theorem Npx.reg_latch (n : Npx) (i : Instr) (a b c d : Word) (k : BitVec 4) (q : RegNum) :
    (n.latch i a b c d k).reg q = n.reg q := rfl
@[simp] theorem Npx.tag_latch (n : Npx) (i : Instr) (a b c d : Word) (k : BitVec 4) (q : RegNum) :
    (n.latch i a b c d k).tag q = n.tag q := rfl
@[simp] theorem Npx.isEmpty_latch (n : Npx) (i : Instr) (a b c d : Word) (k : BitVec 4) (q : RegNum) :
    (n.latch i a b c d k).isEmpty q = n.isEmpty q := rfl
@[simp] theorem Npx.fetch_latch (n : Npx) (i : Instr) (a b c d : Word) (k : BitVec 4) (q : RegNum) :
    (n.latch i a b c d k).fetch q = n.fetch q := rfl

@[simp] theorem Npx.pops_zero (n : Npx) : n.pops 0 = n := rfl
@[simp] theorem Npx.pops_one (n : Npx) : n.pops 1 = n.pop := rfl
@[simp] theorem Npx.pops_two (n : Npx) : n.pops 2 = n.pop.pop := rfl

end Sys2Proof.Machine
end

