-- ==== Sys2Proof/Laws/Ops.lean ====
section
/-! SUPPORT. For each shared operation, one lemma that says what it can do, and one that says where it runs. -/

namespace Sys2Proof.Machine

open Sys2Proof.Safety

/-! ## Starting an ESC -/

/-- All that starting an ESC can answer with a next state. -/
theorem startEsc_next {checks : Bool} {absent run : State → Outcome} {s t : State}
    (h : startEsc checks absent run s = .next t) :
    t = takeInterrupt .notAvailable s ∨ (s.platform.npxPresent = false ∧ absent s = .next t) ∨
    (checks = true ∧ s.npx.busy = true ∧ t = s) ∨ (checks = true ∧ s.error = true ∧ t = takeInterrupt .npxError s) ∨
    (s.platform.npxPresent = true ∧ s.npx.imagePending = false ∧
      (checks = true → s.npx.busy = false ∧ s.error = false) ∧ run s = .next t) := by
  unfold startEsc at h
  split at h
  · cases h
  split at h
  · cases h; exact .inl rfl
  split at h
  · next hp => exact .inr (.inl ⟨by simpa using hp, h⟩)
  next hp =>
  split at h
  · cases h
  next hi =>
  split at h
  · next hb =>
    cases h
    simp only [Bool.and_eq_true] at hb
    exact .inr (.inr (.inl ⟨hb.1, hb.2, rfl⟩))
  next hb =>
  split at h
  · next he =>
    cases h
    simp only [Bool.and_eq_true] at he
    exact .inr (.inr (.inr (.inl ⟨he.1, he.2, rfl⟩)))
  next he =>
  refine .inr (.inr (.inr (.inr ⟨by simpa using hp, by simpa using hi, fun hc => ?_, h⟩)))
  subst hc
  exact ⟨by simpa using hb, by simpa using he⟩

/-- An ESC that checks BUSY and ERROR runs on a ready machine. -/
theorem startEsc_ready {checks : Bool} {absent run : State → Outcome} {s : State} (h : Ready s) :
    startEsc checks absent run s = run s := by
  simp [startEsc, h.present, h.noEm, h.noTs, h.noImage, h.idle, h.noError]

/-- A no-wait ESC runs when it is passed to the NPX. -/
theorem startEsc_passed {absent run : State → Outcome} {s : State} (h : Passed s) :
    startEsc false absent run s = run s := by
  simp [startEsc, h.present, h.noEm, h.noTs, h.noImage]

theorem passed_of_ready {s : State} (h : Ready s) : Passed s := ⟨h.present, h.noEm, h.noTs, h.noImage⟩

/-- An operand with a word inside runs on, with the number of words inside. -/
theorem checkOperand_fits {i : Instr} {m : MemArg} {words : Nat} {write : Bool} {run : Nat → State → Outcome} {s : State}
    (h : OperandFits s i m words write) (hw : words ≠ 0) : checkOperand i m words write run s = run words s := by
  unfold OperandFits at h
  simp [checkOperand, h, hw]

/-! ## Shapes of instructions -/

theorem neuRegister_ready {pc : Bool} {i : Instr} {f : Npx → Npx} {s : State} (h : Ready s)
    (hp : pc = true → precisionReserved s.npx.cw = false) :
    neuRegister pc i f s = .next (s.finish i (f (s.latched i))) := by
  unfold neuRegister
  rw [startEsc_ready h]
  cases pc <;> simp_all [usingPrecision]

theorem neuLoad_ready {pc : Bool} {i : Instr} {m : MemArg} {words : Nat} {dest : Option RegNum}
    {f : List Byte → Npx → Npx} {s : State} (h : Ready s) (hp : pc = true → precisionReserved s.npx.cw = false)
    (ho : OperandFits s i m words false) (hw : words ≠ 0) :
    neuLoad pc i m words dest f s =
      .next (s.finish i (f (s.operandBytes i m (2 * words)) (s.latchedMem i m))) := by
  unfold neuLoad
  rw [startEsc_ready h]
  cases pc <;> simp_all [usingPrecision, checkOperand_fits ho hw]

theorem neuStore_ready {i : Instr} {m : MemArg} {words pops : Nat} {value : Npx → Out Nat} {s : State} (h : Ready s)
    (ho : OperandFits s i m words true) (hw : words ≠ 0) :
    neuStore i m words pops value s =
      match (value (s.latchedMem i m)).value with
      | none => .next (s.finish i ((s.latchedMem i m).raise (value (s.latchedMem i m)).flags))
      | some v => .next ((s.storeOperand i m (leBytes (2 * words) v)).finish i
          (((s.latchedMem i m).raise (value (s.latchedMem i m)).flags).pops pops)) := by
  unfold neuStore
  rw [startEsc_ready h, checkOperand_fits ho hw]
  unfold commitStore
  split <;> simp_all

theorem controlRegister_ready {checks : Bool} {i : Instr} {f : Npx → Npx} {s : State} (h : Ready s) :
    controlRegister checks i f s = .next (s.finish i (f s.npx)) := by
  unfold controlRegister
  rw [startEsc_ready h]

theorem controlRegister_passed {i : Instr} {f : Npx → Npx} {s : State} (h : Passed s) :
    controlRegister false i f s = .next (s.finish i (f s.npx)) := by
  unfold controlRegister
  rw [startEsc_passed h]

theorem storeControl_passed {i : Instr} {m : MemArg} {value : State → Word} {s : State} (h : Passed s)
    (ho : OperandFits s i m 1 true) :
    storeControl i m value s = .next ((s.storeOperand i m (bytesOfWords [value s])).finish i s.npx) := by
  unfold storeControl
  rw [startEsc_passed h, checkOperand_fits ho (by decide)]

theorem loadControl_ready {i : Instr} {m : MemArg} {words : Nat} {f : Npx → List Byte → Npx} {s : State} (h : Ready s)
    (ho : OperandFits s i m words false) (hw : words ≠ 0) :
    loadControl i m words f s = .next (s.finish i (f s.npx (s.operandBytes i m (2 * words)))) := by
  unfold loadControl
  rw [startEsc_ready h, checkOperand_fits ho hw]
  simp

theorem storeImage_passed {i : Instr} {m : MemArg} {words : Nat} {image : State → List Byte} {after : Npx → Npx}
    {s : State} (h : Passed s) (hb : s.npx.busy = false) (ho : OperandFits s i m words true) (hw : words ≠ 0) :
    storeImage i m words image after s =
      .next ((s.storeOperand i m (image s)).finish i { after s.npx with imagePending := true }) := by
  unfold storeImage
  rw [startEsc_passed h, checkOperand_fits ho hw]
  simp [hb]

section AfterOverrun

variable (n : Npx) (s : State) (i : Instr) (m : MemArg) (k : Nat) (a b : Flags) (new : Npx)

/-- After interrupt 9 either nothing is in flight, or the flags are as before the instruction and it is in flight. -/
theorem Npx.afterOverrun_cases :
    (Config.staysBusy s.draws = false ∧ n.afterOverrun s i m k a b new = { n with inFlight := none }) ∨
    (Config.staysBusy s.draws = true ∧ (n.afterOverrun s i m k a b new).flags = s.npx.flags ∧
      ∃ g, (n.afterOverrun s i m k a b new).inFlight = some g ∧ g.wordsLeft = k ∧ g.sets = a ∧ g.clears = b ∧
        g.oldCc = s.npx.cc ∧ g.cc = new.cc ∧ g.oldTop = s.npx.top ∧ g.top = new.top) := by
  unfold Npx.afterOverrun
  split
  · next h => exact .inr ⟨h, rfl, _, rfl, rfl, rfl, rfl, rfl, rfl, rfl, rfl⟩
  · next h => exact .inl ⟨by simpa using h, rfl⟩

@[simp] theorem Npx.afterOverrun_regs : (n.afterOverrun s i m k a b new).regs = n.regs := by
  unfold Npx.afterOverrun; split <;> rfl
@[simp] theorem Npx.afterOverrun_tags : (n.afterOverrun s i m k a b new).tags = n.tags := by
  unfold Npx.afterOverrun; split <;> rfl
@[simp] theorem Npx.afterOverrun_top : (n.afterOverrun s i m k a b new).top = n.top := by
  unfold Npx.afterOverrun; split <;> rfl
@[simp] theorem Npx.afterOverrun_cc : (n.afterOverrun s i m k a b new).cc = n.cc := by
  unfold Npx.afterOverrun; split <;> rfl
@[simp] theorem Npx.afterOverrun_cw : (n.afterOverrun s i m k a b new).cw = n.cw := by
  unfold Npx.afterOverrun; split <;> rfl
@[simp] theorem Npx.afterOverrun_fipSel : (n.afterOverrun s i m k a b new).fipSel = n.fipSel := by
  unfold Npx.afterOverrun; split <;> rfl
@[simp] theorem Npx.afterOverrun_fipOff : (n.afterOverrun s i m k a b new).fipOff = n.fipOff := by
  unfold Npx.afterOverrun; split <;> rfl
@[simp] theorem Npx.afterOverrun_fdpSel : (n.afterOverrun s i m k a b new).fdpSel = n.fdpSel := by
  unfold Npx.afterOverrun; split <;> rfl
@[simp] theorem Npx.afterOverrun_fdpOff : (n.afterOverrun s i m k a b new).fdpOff = n.fdpOff := by
  unfold Npx.afterOverrun; split <;> rfl
@[simp] theorem Npx.afterOverrun_fop : (n.afterOverrun s i m k a b new).fop = n.fop := by
  unfold Npx.afterOverrun; split <;> rfl
@[simp] theorem Npx.afterOverrun_pm : (n.afterOverrun s i m k a b new).pm = n.pm := by
  unfold Npx.afterOverrun; split <;> rfl
@[simp] theorem Npx.afterOverrun_imagePending :
    (n.afterOverrun s i m k a b new).imagePending = n.imagePending := by
  unfold Npx.afterOverrun; split <;> rfl

end AfterOverrun

/-- All that the end of a store can answer: an unmasked exception leaves memory alone; a store inside its segment writes
its bytes and pops; one past the end takes interrupt 9. -/
theorem commitStore_next {i : Instr} {m : MemArg} {words pops inside : Nat} {o : Out Nat} {s t : State}
    (h : commitStore i m words pops inside o s = .next t) :
    (o.value = none ∧ t = s.finish i ((s.latchedMem i m).raise o.flags)) ∨
    (∃ v, o.value = some v ∧ words ≤ inside ∧
      t = (s.storeOperand i m (leBytes (2 * words) v)).finish i (((s.latchedMem i m).raise o.flags).pops pops)) ∨
    (o.value ≠ none ∧ inside < words ∧
      ∃ n, t = takeOverrun (s.storeOperand i m (freeBytes s.draws (2 * words))) n) := by
  unfold commitStore at h
  dsimp only at h
  split at h
  · next hv => cases h; exact .inl ⟨hv, rfl⟩
  · next v hv =>
    split at h
    · next hw => cases h; exact .inr (.inr ⟨by simp [hv], hw, _, rfl⟩)
    · next hw => cases h; exact .inr (.inl ⟨v, hv, Nat.le_of_not_lt hw, rfl⟩)

/-! ## Interrupts -/

/-- Interrupt 16 pushes no error code (spec 60 R391). -/
@[simp] theorem Platform.errorCode_npxError (p : Platform) : p.errorCode .npxError = none := rfl

@[simp] theorem takeInterruptFrom_npx (v : IntVector) (a b : Word) (s : State) :
    (takeInterruptFrom v a b s).npx = s.npx := by
  unfold takeInterruptFrom
  dsimp only
  repeat' split
  all_goals rfl

@[simp] theorem takeInterruptFrom_platform (v : IntVector) (a b : Word) (s : State) :
    (takeInterruptFrom v a b s).platform = s.platform := by
  unfold takeInterruptFrom
  dsimp only
  repeat' split
  all_goals rfl

@[simp] theorem takeInterruptFrom_draws (v : IntVector) (a b : Word) (s : State) :
    (takeInterruptFrom v a b s).draws = s.draws := by
  unfold takeInterruptFrom
  dsimp only
  repeat' split
  all_goals rfl

@[simp] theorem takeInterrupt_npx (v : IntVector) (s : State) : (takeInterrupt v s).npx = s.npx :=
  takeInterruptFrom_npx ..

@[simp] theorem takeInterrupt_platform (v : IntVector) (s : State) : (takeInterrupt v s).platform = s.platform :=
  takeInterruptFrom_platform ..

theorem State.pushWord_wf (s : State) (w : Word) (h : s.mem.wf = true) : (s.pushWord w).mem.wf = true :=
  Memory.writeAll_wf _ _ h

/-- Taking an interrupt keeps the canonical form of memory. -/
theorem takeInterruptFrom_wf (v : IntVector) (a b : Word) (s : State) (h : s.mem.wf = true) :
    (takeInterruptFrom v a b s).mem.wf = true := by
  have hl : (s.pushLink a b).mem.wf = true :=
    State.pushWord_wf _ _ (State.pushWord_wf _ _ (State.pushWord_wf _ _ h))
  unfold takeInterruptFrom
  dsimp only
  split
  · split
    · exact State.pushWord_wf _ _ hl
    · exact hl
  · exact hl

/-- In Real-Address mode: where control goes, what the flags become and how far the stack pointer moves. -/
theorem takeInterruptFrom_real (v : IntVector) (a b : Word) (s : State) (h : s.cpu.protectedMode = false) :
    takeInterruptFrom v a b s = (s.pushLink a b).enter (realSegment ((s.pushLink a b).wordAt (4 * v.number + 2)))
      ((s.pushLink a b).wordAt (4 * v.number)) := by
  simp [takeInterruptFrom, h]

/-! ## The end of an instruction -/

/-- `commit` either stops with the flags raised or has its effect. -/
theorem Npx.commit_cases {α : Type} (n : Npx) (o : Out α) (effect : Npx → α → Npx) :
    (o.value = none ∧ n.commit o effect = n.raise o.flags) ∨
    (∃ v, o.value = some v ∧ n.commit o effect = effect (n.raise o.flags) v) := by
  unfold Npx.commit
  cases h : o.value with
  | none => exact .inl ⟨rfl, rfl⟩
  | some v => exact .inr ⟨v, rfl, rfl⟩

/-- Nothing is signalled by a plain value. -/
@[simp] theorem Npx.commit_pure {α : Type} (n : Npx) (v : α) (effect : Npx → α → Npx) :
    n.commit (.pure v) effect = effect n v := by
  have : n.raise 0#6 = n := by simp [Npx.raise]
  simp [Npx.commit, Out.pure, this]

@[simp] theorem Out.andThen_pure {α β : Type} (v : α) (f : α → Out β) : (Out.pure v).andThen f = f v := by
  simp [Out.andThen, Out.pure]

/-- A masked exception before the operation goes on with its response. -/
theorem signalBefore_masked {α : Type} {cw : Word} {f : Flags} (v : α) (h : masked cw f = true) :
    signalBefore cw f v = { flags := f, value := some v } := by simp [signalBefore, h]

/-- An unmasked exception before the operation ends it. -/
theorem signalBefore_unmasked {α : Type} {cw : Word} {f : Flags} (v : α) (h : masked cw f = false) :
    signalBefore cw f v = { flags := f, value := none } := by simp [signalBefore, h]

theorem Npx.fetch_full {n : Npx} {i : RegNum} (h : n.isEmpty i = false) : n.fetch i = .pure (n.st i) := by
  simp [Npx.fetch, h]

end Sys2Proof.Machine
end

