-- ==== Sys2Proof/Laws/Fetch.lean ====
section
/-! SUPPORT. What a step can do with bytes that do not decode. -/

namespace Sys2Proof.Machine

/-- Bytes that are no row of the table give a next state only as an unassigned ESC code: interrupt 7, or, with no NPX, IP
past the code. -/
theorem undecoded_next {e : DecodeError} {s t : State} (h : undecoded e s = .next t) :
    e = .unassignedEsc ∧ (t = takeInterrupt .notAvailable s ∨ (s.platform.npxPresent = false ∧
      t = { s with cpu := { s.cpu with ip := s.cpu.ip + BitVec.ofNat 16 (escLength s.fetchWindow) } })) := by
  unfold undecoded at h
  split at h
  · next he =>
    refine ⟨he, ?_⟩
    rcases startEsc_next h with h | ⟨hp, h⟩ | ⟨h, _⟩ | ⟨h, _⟩ | ⟨_, _, _, h⟩
    · exact .inl h
    · cases h; exact .inr ⟨hp, rfl⟩
    · cases h
    · cases h
    · cases h
  · cases h

/-- Such a step leaves the NPX, the platform and the canonical form of memory as they are. -/
theorem undecoded_keeps {e : DecodeError} {s t : State} (h : undecoded e s = .next t) :
    t.npx = s.npx ∧ t.platform = s.platform ∧ (s.mem.wf = true → t.mem.wf = true) := by
  rcases (undecoded_next h).2 with rfl | ⟨_, rfl⟩
  · exact ⟨by simp, by simp, takeInterruptFrom_wf _ _ _ s⟩
  · exact ⟨rfl, rfl, id⟩

end Sys2Proof.Machine
end

