-- ==== Sys2Proof/Laws/Flags.lean ====
section
/-! SUPPORT. The bits of the condition code, the flags' stickiness, and the status word of a busy or idle NPX. -/

namespace Sys2Proof.Machine

theorem ccOf_c3 (a b c d : Bool) : (ccOf a b c d).getLsbD 3 = a := by revert a b c d; decide
theorem ccOf_c2 (a b c d : Bool) : (ccOf a b c d).getLsbD 2 = b := by revert a b c d; decide
theorem ccOf_c1 (a b c d : Bool) : (ccOf a b c d).getLsbD 1 = c := by revert a b c d; decide
theorem ccOf_c0 (a b c d : Bool) : (ccOf a b c d).getLsbD 0 = d := by revert a b c d; decide

@[simp] theorem ccOf_bit3 (a b c d : Bool) : (ccOf a b c d)[3] = a := ccOf_c3 a b c d
@[simp] theorem ccOf_bit2 (a b c d : Bool) : (ccOf a b c d)[2] = b := ccOf_c2 a b c d
@[simp] theorem ccOf_bit1 (a b c d : Bool) : (ccOf a b c d)[1] = c := ccOf_c1 a b c d
@[simp] theorem ccOf_bit0 (a b c d : Bool) : (ccOf a b c d)[0] = d := ccOf_c0 a b c d

/-- C3 C2 C0 of a comparison (spec 42 R251). -/
theorem ccOfOrder_codes (o : Order) (free : BitVec 4) :
    ((ccOfOrder o free).getLsbD 3, (ccOfOrder o free).getLsbD 2, (ccOfOrder o free).getLsbD 0) =
      match o with
      | .greater => (false, false, false)
      | .less => (false, false, true)
      | .equal => (true, false, false)
      | .unordered => (true, true, true) := by
  cases o <;> simp only [ccOfOrder, ccOf_c3, ccOf_c2, ccOf_c0]

/-- Flags added to the flags keep the flags. -/
theorem flags_sticky (a b : Flags) : a &&& (a ||| b) = a := by
  ext i
  simp only [BitVec.getElem_and, BitVec.getElem_or]
  cases a[i] <;> simp

/-! ## The status word FNSTSW shows -/

/-- Each bit of a mixed field is the old one or the new one. -/
theorem mixed_getLsbD {w : Nat} (pick old new : BitVec w) (i : Nat) :
    (mixed pick old new).getLsbD i = if pick.getLsbD i then new.getLsbD i else old.getLsbD i := by
  by_cases h : i < w
  · simp only [mixed, BitVec.getLsbD_or, BitVec.getLsbD_and, BitVec.getLsbD_not, h, decide_true, Bool.true_and]
    cases pick.getLsbD i <;> simp
  · simp [BitVec.getLsbD_of_ge _ _ (Nat.le_of_not_lt h)]

/-- A field an instruction does not change shows its value. -/
@[simp] theorem mixed_self {w : Nat} (pick old : BitVec w) : mixed pick old old = old := by
  ext i hi
  simp only [← BitVec.getLsbD_eq_getElem, mixed_getLsbD, ite_self]

/-- An idle NPX shows its status word. -/
theorem statusWordNow_idle {pl : Platform} {n : Npx} {draw : Nat} (h : n.inFlight = none) :
    statusWordNow pl n draw = statusWord pl n := by simp [statusWordNow, h]

/-- A busy one shows each field before or after the instruction in flight. -/
theorem statusWordNow_busy {pl : Platform} {n : Npx} {draw : Nat} {g : InFlight} (h : n.inFlight = some g) :
    statusWordNow pl n draw = statusInFlight pl n g (Config.earlyFields draw) := by simp [statusWordNow, h]

/-- Where the instruction in flight changes no field, each field is shown as it is, with B set. -/
theorem statusInFlight_unchanged {pl : Platform} {n : Npx} {g : InFlight} {pick : BitVec 11} (hs : g.sets = 0)
    (hc : g.clears = 0) (hcc : g.cc = g.oldCc) (ht : g.top = g.oldTop) :
    statusInFlight pl n g pick = statusOf true (errorActive pl n) g.oldCc g.oldTop n.flags := by
  have hf : (n.flags &&& ~~~g.clears) ||| g.sets = n.flags := by
    rw [hs, hc, show (~~~(0 : Flags)) = BitVec.allOnes 6 from rfl, BitVec.and_allOnes]
    exact BitVec.or_zero
  simp only [statusInFlight, hf, hcc, ht, mixed_self, ite_self]

end Sys2Proof.Machine
end

