-- ==== Sys2Proof/Laws/PerInstr.lean ====
section
/-! SUPPORT. Statements about every instruction, one lemma per constructor. -/

namespace Sys2Proof.Laws.EncodeLength

/-- The encoding of an instruction has as many bytes as its overrides and its body take. -/
def Statement (i : Instr) : Prop := (encode i).length = i.overrides.length + i.bodySize

/-- The bytes of a memory operand: the ModRM byte and its displacement. -/
theorem encodeMemArg_length (e : BitVec 3) (m : MemArg) : (encodeMemArg e m).length = 1 + m.dispBytes := by
  cases m <;> rfl

theorem mem_form (p : List Seg) (b : Byte) (e : BitVec 3) (m : MemArg) :
    (p.map Seg.code ++ b :: encodeMemArg e m).length = p.length + (2 + m.dispBytes) := by
  simp only [List.length_append, List.length_map, List.length_cons, encodeMemArg_length]
  omega

theorem two_bytes (p : List Seg) (a b : Byte) : (p.map Seg.code ++ [a, b]).length = p.length + 2 := by simp

theorem faddM32r (p : List Seg) (m : MemArg) : Statement (.faddM32r p m) := mem_form p _ _ m
theorem fmulM32r (p : List Seg) (m : MemArg) : Statement (.fmulM32r p m) := mem_form p _ _ m
theorem fcomM32r (p : List Seg) (m : MemArg) : Statement (.fcomM32r p m) := mem_form p _ _ m
theorem fcompM32r (p : List Seg) (m : MemArg) : Statement (.fcompM32r p m) := mem_form p _ _ m
theorem fsubM32r (p : List Seg) (m : MemArg) : Statement (.fsubM32r p m) := mem_form p _ _ m
theorem fsubrM32r (p : List Seg) (m : MemArg) : Statement (.fsubrM32r p m) := mem_form p _ _ m
theorem fdivM32r (p : List Seg) (m : MemArg) : Statement (.fdivM32r p m) := mem_form p _ _ m
theorem fdivrM32r (p : List Seg) (m : MemArg) : Statement (.fdivrM32r p m) := mem_form p _ _ m
theorem faddStSti (p : List Seg) (i : RegNum) : Statement (.faddStSti p i) := two_bytes p _ _
theorem fmulStSti (p : List Seg) (i : RegNum) : Statement (.fmulStSti p i) := two_bytes p _ _
theorem fcomSti (p : List Seg) (i : RegNum) : Statement (.fcomSti p i) := two_bytes p _ _
theorem fcompSti (p : List Seg) (i : RegNum) : Statement (.fcompSti p i) := two_bytes p _ _
theorem fsubStSti (p : List Seg) (i : RegNum) : Statement (.fsubStSti p i) := two_bytes p _ _
theorem fsubrStSti (p : List Seg) (i : RegNum) : Statement (.fsubrStSti p i) := two_bytes p _ _
theorem fdivStSti (p : List Seg) (i : RegNum) : Statement (.fdivStSti p i) := two_bytes p _ _
theorem fdivrStSti (p : List Seg) (i : RegNum) : Statement (.fdivrStSti p i) := two_bytes p _ _
theorem fldM32r (p : List Seg) (m : MemArg) : Statement (.fldM32r p m) := mem_form p _ _ m
theorem fstM32r (p : List Seg) (m : MemArg) : Statement (.fstM32r p m) := mem_form p _ _ m
theorem fstpM32r (p : List Seg) (m : MemArg) : Statement (.fstpM32r p m) := mem_form p _ _ m
theorem fldenvM14 (p : List Seg) (m : MemArg) : Statement (.fldenvM14 p m) := mem_form p _ _ m
theorem fldcwM2 (p : List Seg) (m : MemArg) : Statement (.fldcwM2 p m) := mem_form p _ _ m
theorem fnstenvM14 (p : List Seg) (m : MemArg) : Statement (.fnstenvM14 p m) := mem_form p _ _ m
theorem fnstcwM2 (p : List Seg) (m : MemArg) : Statement (.fnstcwM2 p m) := mem_form p _ _ m
theorem fldSti (p : List Seg) (i : RegNum) : Statement (.fldSti p i) := two_bytes p _ _
theorem fxchSti (p : List Seg) (i : RegNum) : Statement (.fxchSti p i) := two_bytes p _ _
theorem fnop (p : List Seg) : Statement (.fnop p) := two_bytes p _ _
theorem fchs (p : List Seg) : Statement (.fchs p) := two_bytes p _ _
theorem fabs (p : List Seg) : Statement (.fabs p) := two_bytes p _ _
theorem ftst (p : List Seg) : Statement (.ftst p) := two_bytes p _ _
theorem fxam (p : List Seg) : Statement (.fxam p) := two_bytes p _ _
theorem fld1 (p : List Seg) : Statement (.fld1 p) := two_bytes p _ _
theorem fldl2t (p : List Seg) : Statement (.fldl2t p) := two_bytes p _ _
theorem fldl2e (p : List Seg) : Statement (.fldl2e p) := two_bytes p _ _
theorem fldpi (p : List Seg) : Statement (.fldpi p) := two_bytes p _ _
theorem fldlg2 (p : List Seg) : Statement (.fldlg2 p) := two_bytes p _ _
theorem fldln2 (p : List Seg) : Statement (.fldln2 p) := two_bytes p _ _
theorem fldz (p : List Seg) : Statement (.fldz p) := two_bytes p _ _
theorem f2xm1 (p : List Seg) : Statement (.f2xm1 p) := two_bytes p _ _
theorem fyl2x (p : List Seg) : Statement (.fyl2x p) := two_bytes p _ _
theorem fptan (p : List Seg) : Statement (.fptan p) := two_bytes p _ _
theorem fpatan (p : List Seg) : Statement (.fpatan p) := two_bytes p _ _
theorem fxtract (p : List Seg) : Statement (.fxtract p) := two_bytes p _ _
theorem fdecstp (p : List Seg) : Statement (.fdecstp p) := two_bytes p _ _
theorem fincstp (p : List Seg) : Statement (.fincstp p) := two_bytes p _ _
theorem fprem (p : List Seg) : Statement (.fprem p) := two_bytes p _ _
theorem fyl2xp1 (p : List Seg) : Statement (.fyl2xp1 p) := two_bytes p _ _
theorem fsqrt (p : List Seg) : Statement (.fsqrt p) := two_bytes p _ _
theorem frndint (p : List Seg) : Statement (.frndint p) := two_bytes p _ _
theorem fscale (p : List Seg) : Statement (.fscale p) := two_bytes p _ _
theorem fiaddM32i (p : List Seg) (m : MemArg) : Statement (.fiaddM32i p m) := mem_form p _ _ m
theorem fimulM32i (p : List Seg) (m : MemArg) : Statement (.fimulM32i p m) := mem_form p _ _ m
theorem ficomM32i (p : List Seg) (m : MemArg) : Statement (.ficomM32i p m) := mem_form p _ _ m
theorem ficompM32i (p : List Seg) (m : MemArg) : Statement (.ficompM32i p m) := mem_form p _ _ m
theorem fisubM32i (p : List Seg) (m : MemArg) : Statement (.fisubM32i p m) := mem_form p _ _ m
theorem fisubrM32i (p : List Seg) (m : MemArg) : Statement (.fisubrM32i p m) := mem_form p _ _ m
theorem fidivM32i (p : List Seg) (m : MemArg) : Statement (.fidivM32i p m) := mem_form p _ _ m
theorem fidivrM32i (p : List Seg) (m : MemArg) : Statement (.fidivrM32i p m) := mem_form p _ _ m
theorem fildM32i (p : List Seg) (m : MemArg) : Statement (.fildM32i p m) := mem_form p _ _ m
theorem fistM32i (p : List Seg) (m : MemArg) : Statement (.fistM32i p m) := mem_form p _ _ m
theorem fistpM32i (p : List Seg) (m : MemArg) : Statement (.fistpM32i p m) := mem_form p _ _ m
theorem fldM80r (p : List Seg) (m : MemArg) : Statement (.fldM80r p m) := mem_form p _ _ m
theorem fstpM80r (p : List Seg) (m : MemArg) : Statement (.fstpM80r p m) := mem_form p _ _ m
theorem fneni (p : List Seg) : Statement (.fneni p) := two_bytes p _ _
theorem fndisi (p : List Seg) : Statement (.fndisi p) := two_bytes p _ _
theorem fnclex (p : List Seg) : Statement (.fnclex p) := two_bytes p _ _
theorem fninit (p : List Seg) : Statement (.fninit p) := two_bytes p _ _
theorem fsetpm (p : List Seg) : Statement (.fsetpm p) := two_bytes p _ _
theorem faddM64r (p : List Seg) (m : MemArg) : Statement (.faddM64r p m) := mem_form p _ _ m
theorem fmulM64r (p : List Seg) (m : MemArg) : Statement (.fmulM64r p m) := mem_form p _ _ m
theorem fcomM64r (p : List Seg) (m : MemArg) : Statement (.fcomM64r p m) := mem_form p _ _ m
theorem fcompM64r (p : List Seg) (m : MemArg) : Statement (.fcompM64r p m) := mem_form p _ _ m
theorem fsubM64r (p : List Seg) (m : MemArg) : Statement (.fsubM64r p m) := mem_form p _ _ m
theorem fsubrM64r (p : List Seg) (m : MemArg) : Statement (.fsubrM64r p m) := mem_form p _ _ m
theorem fdivM64r (p : List Seg) (m : MemArg) : Statement (.fdivM64r p m) := mem_form p _ _ m
theorem fdivrM64r (p : List Seg) (m : MemArg) : Statement (.fdivrM64r p m) := mem_form p _ _ m
theorem faddStiSt (p : List Seg) (i : RegNum) : Statement (.faddStiSt p i) := two_bytes p _ _
theorem fmulStiSt (p : List Seg) (i : RegNum) : Statement (.fmulStiSt p i) := two_bytes p _ _
theorem fsubrStiSt (p : List Seg) (i : RegNum) : Statement (.fsubrStiSt p i) := two_bytes p _ _
theorem fsubStiSt (p : List Seg) (i : RegNum) : Statement (.fsubStiSt p i) := two_bytes p _ _
theorem fdivrStiSt (p : List Seg) (i : RegNum) : Statement (.fdivrStiSt p i) := two_bytes p _ _
theorem fdivStiSt (p : List Seg) (i : RegNum) : Statement (.fdivStiSt p i) := two_bytes p _ _
theorem fldM64r (p : List Seg) (m : MemArg) : Statement (.fldM64r p m) := mem_form p _ _ m
theorem fstM64r (p : List Seg) (m : MemArg) : Statement (.fstM64r p m) := mem_form p _ _ m
theorem fstpM64r (p : List Seg) (m : MemArg) : Statement (.fstpM64r p m) := mem_form p _ _ m
theorem frstorM94 (p : List Seg) (m : MemArg) : Statement (.frstorM94 p m) := mem_form p _ _ m
theorem fnsaveM94 (p : List Seg) (m : MemArg) : Statement (.fnsaveM94 p m) := mem_form p _ _ m
theorem fnstswM2 (p : List Seg) (m : MemArg) : Statement (.fnstswM2 p m) := mem_form p _ _ m
theorem ffreeSti (p : List Seg) (i : RegNum) : Statement (.ffreeSti p i) := two_bytes p _ _
theorem fstSti (p : List Seg) (i : RegNum) : Statement (.fstSti p i) := two_bytes p _ _
theorem fstpSti (p : List Seg) (i : RegNum) : Statement (.fstpSti p i) := two_bytes p _ _
theorem fiaddM16i (p : List Seg) (m : MemArg) : Statement (.fiaddM16i p m) := mem_form p _ _ m
theorem fimulM16i (p : List Seg) (m : MemArg) : Statement (.fimulM16i p m) := mem_form p _ _ m
theorem ficomM16i (p : List Seg) (m : MemArg) : Statement (.ficomM16i p m) := mem_form p _ _ m
theorem ficompM16i (p : List Seg) (m : MemArg) : Statement (.ficompM16i p m) := mem_form p _ _ m
theorem fisubM16i (p : List Seg) (m : MemArg) : Statement (.fisubM16i p m) := mem_form p _ _ m
theorem fisubrM16i (p : List Seg) (m : MemArg) : Statement (.fisubrM16i p m) := mem_form p _ _ m
theorem fidivM16i (p : List Seg) (m : MemArg) : Statement (.fidivM16i p m) := mem_form p _ _ m
theorem fidivrM16i (p : List Seg) (m : MemArg) : Statement (.fidivrM16i p m) := mem_form p _ _ m
theorem faddpStiSt (p : List Seg) (i : RegNum) : Statement (.faddpStiSt p i) := two_bytes p _ _
theorem fmulpStiSt (p : List Seg) (i : RegNum) : Statement (.fmulpStiSt p i) := two_bytes p _ _
theorem fsubrpStiSt (p : List Seg) (i : RegNum) : Statement (.fsubrpStiSt p i) := two_bytes p _ _
theorem fsubpStiSt (p : List Seg) (i : RegNum) : Statement (.fsubpStiSt p i) := two_bytes p _ _
theorem fdivrpStiSt (p : List Seg) (i : RegNum) : Statement (.fdivrpStiSt p i) := two_bytes p _ _
theorem fdivpStiSt (p : List Seg) (i : RegNum) : Statement (.fdivpStiSt p i) := two_bytes p _ _
theorem fcompp (p : List Seg) : Statement (.fcompp p) := two_bytes p _ _
theorem fildM16i (p : List Seg) (m : MemArg) : Statement (.fildM16i p m) := mem_form p _ _ m
theorem fistM16i (p : List Seg) (m : MemArg) : Statement (.fistM16i p m) := mem_form p _ _ m
theorem fistpM16i (p : List Seg) (m : MemArg) : Statement (.fistpM16i p m) := mem_form p _ _ m
theorem fbldM80d (p : List Seg) (m : MemArg) : Statement (.fbldM80d p m) := mem_form p _ _ m
theorem fildM64i (p : List Seg) (m : MemArg) : Statement (.fildM64i p m) := mem_form p _ _ m
theorem fbstpM80d (p : List Seg) (m : MemArg) : Statement (.fbstpM80d p m) := mem_form p _ _ m
theorem fistpM64i (p : List Seg) (m : MemArg) : Statement (.fistpM64i p m) := mem_form p _ _ m
theorem fnstswAx (p : List Seg) : Statement (.fnstswAx p) := two_bytes p _ _
theorem fwait (p : List Seg) : Statement (.fwait p) := by simp [Statement, encode, encodeBody, Instr.bodySize, Instr.overrides]

end Sys2Proof.Laws.EncodeLength
end

