-- ==== Sys2Proof/Laws/Value.lean ====
section
/-! SUPPORT. What a delivery can signal, and the overflow of FSCALE. -/

namespace Sys2Proof.Machine

open Sys2Proof.Config (Mag UnnormalChoice)

/-! ## A delivery signals O, U and P alone, never I, D or Z (spec 41 R193) -/

theorem flagPIf_after (b : Bool) : flagPIf b &&& 0b000111#6 = 0 := by cases b <;> decide

theorem deliverOverflow_flags (cw : Word) (neg : Bool) (x : Mag) (big : TempReal) :
    (deliverOverflow cw neg x big).flags &&& 0b000111#6 = 0 := by
  unfold deliverOverflow
  split <;> simp only [Out.after] <;> decide

theorem deliverUnderflow_flags (cw : Word) (p : Nat) (neg : Bool) (x : Mag) :
    (deliverUnderflow cw p neg x).flags &&& 0b000111#6 = 0 := by
  unfold deliverUnderflow
  split
  · dsimp only [Out.after]
    cases (roundAt (rounding cw) neg x (max (-16445) (magLog x - p + 1))).inexact <;> decide
  · simp only [Out.after]; decide

/-- The shape deliveries share: the underflow check, the overflow check, and the result. -/
theorem checked_flags {c d : Prop} [Decidable c] [Decidable d] {u o : Out TempReal} {b : Bool} {v : TempReal}
    (hu : u.flags &&& 0b000111#6 = 0) (ho : o.flags &&& 0b000111#6 = 0) :
    (if c then u else if d then o else .after (flagPIf b) v).flags &&& 0b000111#6 = 0 := by
  split
  · exact hu
  split
  · exact ho
  · exact flagPIf_after b

theorem deliver_flags (cw : Word) (p : Nat) (neg : Bool) (x : Mag) : (deliver cw p neg x).flags &&& 0b000111#6 = 0 := by
  unfold deliver
  exact checked_flags (deliverUnderflow_flags ..) (deliverOverflow_flags ..)

theorem deliverNormal_flags (cw : Word) (p : Nat) (neg : Bool) (x : Mag) (ch : UnnormalChoice) :
    (deliverNormal cw p neg x ch).flags &&& 0b000111#6 = 0 := by
  unfold deliverNormal
  exact checked_flags (deliverUnderflow_flags ..) (deliverOverflow_flags ..)

theorem deliverUnnormal_flags (cw : Word) (p : Nat) (neg : Bool) (x : Mag) (ch : UnnormalChoice) :
    (deliverUnnormal cw p neg x ch).flags &&& 0b000111#6 = 0 := by
  unfold deliverUnnormal
  exact checked_flags (deliverUnderflow_flags ..) (deliverOverflow_flags ..)

/-! ## FSCALE -/

/-- The finite overflow of FSCALE is one of the two rows of spec 11 R81. -/
theorem scaleLargest_cases (v : TempReal) (n : Int) : scaleLargest v n = largestOf (signOf v) ∨
    scaleLargest v n = packReal (signOf v) 0x7FFE (sigOf v) := by
  unfold scaleLargest
  split
  · exact .inl rfl
  · exact .inr rfl

/-- With integer bit 0 it is the unnormal row: the largest exponent and the operand's significand. -/
theorem scaleLargest_unnormal {v : TempReal} (h : v.getLsbD 63 = false) (n : Int) :
    scaleLargest v n = packReal (signOf v) 0x7FFE (sigOf v) := by
  unfold scaleLargest
  rw [h]
  rfl

/-- Scaling an operand that keeps its significand signals no I, D or Z. -/
theorem scaleKept_flags (cw : Word) (v : TempReal) (n : Int) : (scaleKept cw v n).flags &&& 0b000111#6 = 0 := by
  unfold scaleKept
  dsimp only
  generalize (if sigOf v = 0 then _ else _ : Bool) = b
  cases b
  · simp only [Bool.false_eq_true, if_false]
    split
    · exact deliverOverflow_flags ..
    · simp [Out.pure]
  · exact deliverUnderflow_flags ..

/-! ## Transcendentals -/

/-- A delivery bounded by a list of flags signals no other (spec 60 R365). -/
theorem deliverAllowed_flags (allowed : Flags) (cw : Word) (v : Config.SignedMag) :
    (deliverAllowed allowed cw v).flags &&& ~~~allowed = 0 := by
  unfold deliverAllowed
  dsimp only
  split
  · assumption
  · simp [Out.pure]

/-- A delivery whose flags are all in the list is the delivery. -/
theorem deliverAllowed_within {allowed : Flags} {cw : Word} {v : Config.SignedMag}
    (h : (deliverValue cw v).flags &&& ~~~allowed = 0) : deliverAllowed allowed cw v = deliverValue cw v := by
  simp [deliverAllowed, h]

/-- A zero keeps its sign and signals nothing. -/
theorem deliverValue_zero {cw : Word} {v : Config.SignedMag} (h : magZero v.mag = true) :
    deliverValue cw v = .pure (zeroOf v.neg) := by simp [deliverValue, h]

end Sys2Proof.Machine
end

