-- ==== Sys2Proof/Tests/Slice0.lean ====
section
/-! SUPPORT. Small tests: words and results taken from the spec, one step each; and for every statement with hypotheses
a concrete case that meets them. -/

namespace Sys2Proof.Tests

open Sys2Proof.Machine Sys2Proof.Safety

set_option Elab.async false

/-! ## Helpers -/

/-- The instruction some bytes are, all of them. -/
def decoded (bytes : List Byte) : Option Instr :=
  match decode bytes with
  | .ok (i, []) => some i
  | _ => none

def decodedAll (l : List (List Byte)) : List (Option Instr) := l.map decoded

/-- The refusal some bytes get. -/
def refusedAs (bytes : List Byte) : Option DecodeError :=
  match decode bytes with
  | .ok _ => none
  | .error e => some e

/-- The machine after reset with a control word and ST, ST(1), ... as given. -/
def machine (cw : Word) (stack : List TempReal) : State :=
  let n := stack.reverse.foldl Npx.pushValue Npx.reset
  { State.reset with npx := { n with cw := cw } }

/-- The machine with bytes of memory at an address. -/
def holding (s : State) (a : Nat) (bytes : List Byte) : State :=
  { s with mem := s.mem.writeAll ((List.range bytes.length).map (a + ·) |>.zip bytes) }

/-- What one step on the given bytes leaves, seen through f. -/
def after {α : Type} (s : State) (bytes : List Byte) (f : State → α) : Option α :=
  match step (s.withFetchBytes bytes) with
  | .next t => some (f t)
  | _ => none

/-- The refusal of one step on the given bytes. -/
def refusal (s : State) (bytes : List Byte) : Option Refusal :=
  match step (s.withFetchBytes bytes) with
  | .refused r => some r
  | _ => none

def isNext : Outcome → Bool
  | .next _ => true
  | _ => false

theorem next_of {o : Outcome} (h : isNext o = true) : ∃ t, o = .next t := by
  cases o with
  | next t => exact ⟨t, rfl⟩
  | fault r => cases h
  | refused r => cases h

/-- ST, the flags, TOP. -/
def view (t : State) : TempReal × Flags × RegNum := (t.npx.st 0, t.npx.flags, t.npx.top)

/-- The first bytes at an address. -/
def bytesAt (a n : Nat) (t : State) : List Byte := (List.range n).map fun k => t.mem.read (a + k)

def readyCheck (s : State) : Bool :=
  s.platform.npxPresent && !s.cpu.em && !s.cpu.ts && !s.npx.imagePending && !s.npx.busy && !s.error

theorem ready_of {s : State} (h : readyCheck s = true) : Ready s := by
  simp only [readyCheck, Bool.and_eq_true, Bool.not_eq_true'] at h
  exact ⟨h.1.1.1.1.1, h.1.1.1.1.2, h.1.1.1.2, h.1.1.2, h.1.2, h.2⟩

theorem inv_of {s : State}
    (h : (s.mem.wf && (!s.npx.imagePending || masksOf s.npx.cw == 0b111111#6 || s.npx.busy) &&
      s.npx.inFlight.all fun g => decide (0 < g.wordsLeft) && decide (g.wordsLeft < 47)) = true) : Inv s := by
  simp only [Bool.and_eq_true, Bool.or_eq_true, Bool.not_eq_true', beq_iff_eq] at h
  obtain ⟨⟨hw, hm⟩, hf⟩ := h
  refine ⟨hw, fun hp => ?_, fun g hg => ?_⟩
  · rcases hm with (h | h) | h
    · rw [h] at hp; cases hp
    · exact .inl h
    · exact .inr h
  · simpa [hg] using hf

def one : TempReal := 0x3FFF8000000000000000#80
def two : TempReal := 0x40008000000000000000#80
def three : TempReal := 0x4000C000000000000000#80
def four : TempReal := 0x40018000000000000000#80
def five : TempReal := 0x4001A000000000000000#80
def half : TempReal := 0x3FFE8000000000000000#80
def minusOne : TempReal := 0xBFFF8000000000000000#80
/-- A denormal. -/
def tiny : TempReal := 0x00000000000000000001#80
/-- An unnormal, 0.5. -/
def loose : TempReal := 0x3FFF4000000000000000#80
/-- A pseudo zero. -/
def nought : TempReal := 0x40000000000000000000#80
def nan : TempReal := 0x7FFFC000000000000001#80
def infinity : TempReal := 0x7FFF8000000000000000#80

/-! ## Which instructions have an encoding -/

theorem test_wellFormed_accepts_ten_bytes :
    (Instr.faddM64r [.cs, .cs, .cs, .cs, .cs, .cs] (.base16 .bp 0xFFFF)).WellFormed = true := by decide

theorem test_wellFormed_refuses_bp_without_displacement : (Instr.faddM64r [] (.base .bp)).WellFormed = false := by decide

theorem test_wellFormed_refuses_eleven_bytes :
    (Instr.faddM64r [.cs, .cs, .cs, .cs, .cs, .cs, .cs] (.direct 0)).WellFormed = false ∧
    (Instr.fld1 [.cs, .cs, .cs, .cs, .cs, .cs, .cs, .cs, .cs]).WellFormed = false := by decide

/-! ## Decoding: words written out from the spec's encodings -/

/-- Words of spec 30 R134, the operand by R139. -/
theorem test_decode_D8_memory_forms :
    decodedAll [
      [0xD8, 0b00_000_000], [0xD8, 0b00_001_110, 0x34, 0x12], [0xD8, 0b00_010_101], [0xD8, 0b01_011_110, 0xF0],
      [0xD8, 0b10_100_100, 0x04, 0x00], [0xD8, 0b00_101_111], [0xD8, 0b01_110_011, 0x7F],
      [0xD8, 0b10_111_010, 0xFF, 0x80]] = [
      .faddM32r [] (.base .bxsi), .fmulM32r [] (.direct 0x1234), .fcomM32r [] (.base .di),
      .fcompM32r [] (.base8 .bp 0xF0), .fsubM32r [] (.base16 .si 0x0004), .fsubrM32r [] (.base .bx),
      .fdivM32r [] (.base8 .bpdi 0x7F), .fdivrM32r [] (.base16 .bpsi 0x80FF)].map some := by
  decide +kernel

/-- Words of spec 30 R135, the operand by R139. -/
theorem test_decode_D9_memory_forms :
    decodedAll [
      [0xD9, 0b00_000_000], [0xD9, 0b00_010_101], [0xD9, 0b01_011_110, 0xF0], [0xD9, 0b10_100_100, 0x04, 0x00],
      [0xD9, 0b00_101_111], [0xD9, 0b01_110_011, 0x7F], [0xD9, 0b10_111_010, 0xFF, 0x80]] = [
      .fldM32r [] (.base .bxsi), .fstM32r [] (.base .di), .fstpM32r [] (.base8 .bp 0xF0),
      .fldenvM14 [] (.base16 .si 0x0004), .fldcwM2 [] (.base .bx), .fnstenvM14 [] (.base8 .bpdi 0x7F),
      .fnstcwM2 [] (.base16 .bpsi 0x80FF)].map some := by
  decide +kernel

/-- Words of spec 30 R136, the operand by R139. -/
theorem test_decode_DA_memory_forms :
    decodedAll [
      [0xDA, 0b00_000_000], [0xDA, 0b00_001_110, 0x34, 0x12], [0xDA, 0b00_010_101], [0xDA, 0b01_011_110, 0xF0],
      [0xDA, 0b10_100_100, 0x04, 0x00], [0xDA, 0b00_101_111], [0xDA, 0b01_110_011, 0x7F],
      [0xDA, 0b10_111_010, 0xFF, 0x80]] = [
      .fiaddM32i [] (.base .bxsi), .fimulM32i [] (.direct 0x1234), .ficomM32i [] (.base .di),
      .ficompM32i [] (.base8 .bp 0xF0), .fisubM32i [] (.base16 .si 0x0004), .fisubrM32i [] (.base .bx),
      .fidivM32i [] (.base8 .bpdi 0x7F), .fidivrM32i [] (.base16 .bpsi 0x80FF)].map some := by
  decide +kernel

/-- Words of spec 30 R137, the operand by R139. -/
theorem test_decode_DB_memory_forms :
    decodedAll [
      [0xDB, 0b00_000_000], [0xDB, 0b00_010_101], [0xDB, 0b01_011_110, 0xF0], [0xDB, 0b00_101_111],
      [0xDB, 0b10_111_010, 0xFF, 0x80]] = [
      .fildM32i [] (.base .bxsi), .fistM32i [] (.base .di), .fistpM32i [] (.base8 .bp 0xF0),
      .fldM80r [] (.base .bx), .fstpM80r [] (.base16 .bpsi 0x80FF)].map some := by
  decide +kernel

/-- Words of spec 30 R138, the operand by R139. -/
theorem test_decode_DC_memory_forms :
    decodedAll [
      [0xDC, 0b00_000_000], [0xDC, 0b00_001_110, 0x34, 0x12], [0xDC, 0b00_010_101], [0xDC, 0b01_011_110, 0xF0],
      [0xDC, 0b10_100_100, 0x04, 0x00], [0xDC, 0b00_101_111], [0xDC, 0b01_110_011, 0x7F],
      [0xDC, 0b10_111_010, 0xFF, 0x80]] = [
      .faddM64r [] (.base .bxsi), .fmulM64r [] (.direct 0x1234), .fcomM64r [] (.base .di),
      .fcompM64r [] (.base8 .bp 0xF0), .fsubM64r [] (.base16 .si 0x0004), .fsubrM64r [] (.base .bx),
      .fdivM64r [] (.base8 .bpdi 0x7F), .fdivrM64r [] (.base16 .bpsi 0x80FF)].map some := by
  decide +kernel

/-- Words of spec 30 R140, the operand by R139. -/
theorem test_decode_DD_memory_forms :
    decodedAll [
      [0xDD, 0b00_000_000], [0xDD, 0b00_010_101], [0xDD, 0b01_011_110, 0xF0], [0xDD, 0b10_100_100, 0x04, 0x00],
      [0xDD, 0b01_110_011, 0x7F], [0xDD, 0b10_111_010, 0xFF, 0x80]] = [
      .fldM64r [] (.base .bxsi), .fstM64r [] (.base .di), .fstpM64r [] (.base8 .bp 0xF0),
      .frstorM94 [] (.base16 .si 0x0004), .fnsaveM94 [] (.base8 .bpdi 0x7F), .fnstswM2 [] (.base16 .bpsi 0x80FF)].map some := by
  decide +kernel

/-- Words of spec 30 R144, the operand by R139. -/
theorem test_decode_DE_memory_forms :
    decodedAll [
      [0xDE, 0b00_000_000], [0xDE, 0b00_001_110, 0x34, 0x12], [0xDE, 0b00_010_101], [0xDE, 0b01_011_110, 0xF0],
      [0xDE, 0b10_100_100, 0x04, 0x00], [0xDE, 0b00_101_111], [0xDE, 0b01_110_011, 0x7F],
      [0xDE, 0b10_111_010, 0xFF, 0x80]] = [
      .fiaddM16i [] (.base .bxsi), .fimulM16i [] (.direct 0x1234), .ficomM16i [] (.base .di),
      .ficompM16i [] (.base8 .bp 0xF0), .fisubM16i [] (.base16 .si 0x0004), .fisubrM16i [] (.base .bx),
      .fidivM16i [] (.base8 .bpdi 0x7F), .fidivrM16i [] (.base16 .bpsi 0x80FF)].map some := by
  decide +kernel

/-- Words of spec 30 R145, the operand by R139. -/
theorem test_decode_DF_memory_forms :
    decodedAll [
      [0xDF, 0b00_000_000], [0xDF, 0b00_010_101], [0xDF, 0b01_011_110, 0xF0], [0xDF, 0b10_100_100, 0x04, 0x00],
      [0xDF, 0b00_101_111], [0xDF, 0b01_110_011, 0x7F], [0xDF, 0b10_111_010, 0xFF, 0x80]] = [
      .fildM16i [] (.base .bxsi), .fistM16i [] (.base .di), .fistpM16i [] (.base8 .bp 0xF0),
      .fbldM80d [] (.base16 .si 0x0004), .fildM64i [] (.base .bx), .fbstpM80d [] (.base8 .bpdi 0x7F),
      .fistpM64i [] (.base16 .bpsi 0x80FF)].map some := by
  decide +kernel

/-- Words of spec 30 R134. -/
theorem test_decode_D8_register_forms :
    decodedAll [
      [0xD8, 0b11000_001], [0xD8, 0b11001_011], [0xD8, 0b11010_101], [0xD8, 0b11011_111], [0xD8, 0b11100_000],
      [0xD8, 0b11101_010], [0xD8, 0b11110_100], [0xD8, 0b11111_110]] = [
      .faddStSti [] 1, .fmulStSti [] 3, .fcomSti [] 5, .fcompSti [] 7, .fsubStSti [] 0, .fsubrStSti [] 2,
      .fdivStSti [] 4, .fdivrStSti [] 6].map some := by
  decide +kernel

/-- Words of spec 30 R135. -/
theorem test_decode_D9_register_forms :
    decodedAll [
      [0xD9, 0b11000_001], [0xD9, 0b11001_011]] = [
      .fldSti [] 1, .fxchSti [] 3].map some := by
  decide +kernel

/-- Words of spec 30 R138. -/
theorem test_decode_DC_register_forms :
    decodedAll [
      [0xDC, 0b11000_001], [0xDC, 0b11001_011], [0xDC, 0b11100_101], [0xDC, 0b11101_111], [0xDC, 0b11110_000],
      [0xDC, 0b11111_010]] = [
      .faddStiSt [] 1, .fmulStiSt [] 3, .fsubrStiSt [] 5, .fsubStiSt [] 7, .fdivrStiSt [] 0, .fdivStiSt [] 2].map some := by
  decide +kernel

/-- Words of spec 30 R140. -/
theorem test_decode_DD_register_forms :
    decodedAll [
      [0xDD, 0b11000_001], [0xDD, 0b11010_011], [0xDD, 0b11011_101]] = [
      .ffreeSti [] 1, .fstSti [] 3, .fstpSti [] 5].map some := by
  decide +kernel

/-- Words of spec 30 R144. -/
theorem test_decode_DE_register_forms :
    decodedAll [
      [0xDE, 0b11000_001], [0xDE, 0b11001_011], [0xDE, 0b11100_101], [0xDE, 0b11101_111], [0xDE, 0b11110_000],
      [0xDE, 0b11111_010]] = [
      .faddpStiSt [] 1, .fmulpStiSt [] 3, .fsubrpStiSt [] 5, .fsubpStiSt [] 7, .fdivrpStiSt [] 0,
      .fdivpStiSt [] 2].map some := by
  decide +kernel

/-- Words of spec 30 R135. -/
theorem test_decode_D9_fixed_forms :
    decodedAll [
      [0xD9, 0xD0], [0xD9, 0xE0], [0xD9, 0xE1], [0xD9, 0xE4], [0xD9, 0xE5], [0xD9, 0xE8], [0xD9, 0xE9],
      [0xD9, 0xEA], [0xD9, 0xEB], [0xD9, 0xEC], [0xD9, 0xED], [0xD9, 0xEE], [0xD9, 0xF0], [0xD9, 0xF1],
      [0xD9, 0xF2], [0xD9, 0xF3], [0xD9, 0xF4], [0xD9, 0xF6], [0xD9, 0xF7], [0xD9, 0xF8], [0xD9, 0xF9],
      [0xD9, 0xFA], [0xD9, 0xFC], [0xD9, 0xFD]] = [
      .fnop [], .fchs [], .fabs [], .ftst [], .fxam [], .fld1 [], .fldl2t [], .fldl2e [], .fldpi [], .fldlg2 [],
      .fldln2 [], .fldz [], .f2xm1 [], .fyl2x [], .fptan [], .fpatan [], .fxtract [], .fdecstp [], .fincstp [],
      .fprem [], .fyl2xp1 [], .fsqrt [], .frndint [], .fscale []].map some := by
  decide +kernel

/-- Words of spec 30 R137. -/
theorem test_decode_DB_fixed_forms :
    decodedAll [
      [0xDB, 0xE0], [0xDB, 0xE1], [0xDB, 0xE2], [0xDB, 0xE3], [0xDB, 0xE4]] = [
      .fneni [], .fndisi [], .fnclex [], .fninit [], .fsetpm []].map some := by
  decide +kernel

/-- Words of spec 30 R144. -/
theorem test_decode_DE_fixed_forms :
    decodedAll [
      [0xDE, 0xD9]] = [
      .fcompp []].map some := by
  decide +kernel

/-- Words of spec 30 R145. -/
theorem test_decode_DF_fixed_forms :
    decodedAll [
      [0xDF, 0xE0]] = [
      .fnstswAx []].map some := by
  decide +kernel

/-- Spec 30 R151. -/
theorem test_decode_fwait : decoded [0x9B] = some (.fwait []) := by decide +kernel

/-- Spec 30 R139: the eight R/M codes with an 8-bit displacement, in order. -/
theorem test_decode_base_registers :
    decodedAll [[0xDE, 0x40, 1], [0xDE, 0x41, 1], [0xDE, 0x42, 1], [0xDE, 0x43, 1], [0xDE, 0x44, 1], [0xDE, 0x45, 1],
      [0xDE, 0x46, 1], [0xDE, 0x47, 1]] =
    [Base.bxsi, .bxdi, .bpsi, .bpdi, .si, .di, .bp, .bx].map fun b => some (.fiaddM16i [] (.base8 b 1)) := by
  decide +kernel

/-- Spec 30 R143, 95 T100: override bytes. -/
theorem test_decode_overrides :
    decodedAll [[0x2E, 0xDC, 0x94, 0, 0], [0x26, 0xD9, 0xEE], [0x36, 0x3E, 0xDB, 0xE3]] =
    [some (.fcomM64r [.cs] (.base16 .si 0)), some (.fldz [.es]), some (.fninit [.ss, .ds])] := by decide +kernel

/-- Spec 95 T103. -/
theorem test_decode_unassigned :
    ([[0xD9, 0xD1], [0xD9, 0xE2], [0xD9, 0x0E, 0, 0], [0xDA, 0xC0], [0xDB, 0xE5], [0xDB, 0x0E, 0, 0], [0xDC, 0xD0],
      [0xDD, 0xC8], [0xDD, 0x0E, 0, 0], [0xDD, 0x2E, 0, 0], [0xDE, 0xD0], [0xDE, 0xDA], [0xDF, 0xC0], [0xDF, 0xE1],
      [0xDF, 0x0E, 0, 0]].all fun b => refusedAs b == some .unassignedEsc) = true := by decide +kernel

/-- LOCK, REPNE, REP (spec 30 R143); an opcode of the 80286. -/
theorem test_decode_other_refusals :
    refusedAs [0xF0, 0xD9, 0xEE] = some .lockOrRepeat ∧ refusedAs [0xF2, 0xD9, 0xEE] = some .lockOrRepeat ∧
    refusedAs [0xF3, 0xD9, 0xEE] = some .lockOrRepeat ∧ refusedAs [0x40] = some .cpuInstruction ∧
    refusedAs [0xD9, 0x06, 0] = some .truncated := by decide +kernel

/-- The numbering of the opcode table: D9 EEH, D8 /7 with zeros after it, 9BH. -/
theorem test_decodeTableWord :
    decodeTableWord 16 0xD9EE = some (.fldz []) ∧ decodeTableWord 16 0xD838 = some (.fdivrM32r [] (.base .bxsi)) ∧
    decodeTableWord 8 0x9B = some (.fwait []) := by decide +kernel

/-! ## One step each; results from spec 95 -/

/-- T3, T39: FLD of the short real 1.0, and of a denormal (masked: the equivalent unnormal). -/
theorem test_fld_short :
    after (holding (machine 0x03FF []) 0x2000 [0, 0, 0x80, 0x3F]) [0xD9, 0x06, 0, 0x20] view = some (one, 0, 7) ∧
    after (holding (machine 0x03FD []) 0x2000 [1, 0, 0, 0]) [0xD9, 0x06, 0, 0x20] (·.npx.flags) = some flagD := by
  decide +kernel

/-- T6: FLD of a temporary real. -/
theorem test_fld_temporary :
    after (holding (machine 0x03FF []) 0x2000 [0x35, 0xC2, 0x68, 0x21, 0xA2, 0xDA, 0x0F, 0xC9, 0xFE, 0x3F])
      [0xDB, 0x2E, 0, 0x20] view = some (0x3FFEC90FDAA22168C235#80, 0, 7) := by decide +kernel

/-- T8: FILD of -126 and of -32768. -/
theorem test_fild_word :
    after (holding (machine 0x03FF []) 0x2000 [0x82, 0xFF]) [0xDF, 0x06, 0, 0x20] view =
      some (0xC005FC00000000000000#80, 0, 7) ∧
    after (holding (machine 0x03FF []) 0x2000 [0, 0x80]) [0xDF, 0x06, 0, 0x20] view =
      some (0xC00E8000000000000000#80, 0, 7) := by decide +kernel

/-- P2: FSTP of +infinity as a short real. P4: of an empty register, unmasked. -/
theorem test_fstp_short :
    after (machine 0x03FF [infinity]) [0xD9, 0x1E, 0x10, 0] (bytesAt 0x10 4) = some [0, 0, 0x80, 0x7F] ∧
    after (holding (machine 0x033E []) 0x2004 [0x11, 0x22, 0x33, 0x44]) [0xD9, 0x1E, 4, 0x20]
      (fun t => (bytesAt 0x2004 4 t, t.npx.flags, t.npx.top)) = some ([0x11, 0x22, 0x33, 0x44], flagI, 0) := by
  decide +kernel

/-- T41: the eighteen register forms on ST = 1.0, ST(1) = 4.0; the first component is ST(1). -/
theorem test_arithmetic_register_forms :
    ([[0xD8, 0xC1], [0xD8, 0xE1], [0xD8, 0xE9], [0xD8, 0xC9], [0xD8, 0xF1], [0xD8, 0xF9]].map fun b =>
      after (machine 0x03FF [one, four]) b fun t => (t.npx.st 1, t.npx.st 0)) =
      [five, 0xC000C000000000000000#80, three, four, 0x3FFD8000000000000000#80, four].map (fun r => some (four, r)) ∧
    ([[0xDC, 0xC1], [0xDC, 0xE9], [0xDC, 0xE1], [0xDC, 0xC9], [0xDC, 0xF9], [0xDC, 0xF1]].map fun b =>
      after (machine 0x03FF [one, four]) b fun t => (t.npx.st 1, t.npx.st 0)) =
      [five, three, 0xC000C000000000000000#80, four, four, 0x3FFD8000000000000000#80].map (fun r => some (r, one)) ∧
    ([[0xDE, 0xC1], [0xDE, 0xE9], [0xDE, 0xE1], [0xDE, 0xC9], [0xDE, 0xF9], [0xDE, 0xF1]].map fun b =>
      after (machine 0x03FF [one, four]) b view) =
      [five, three, 0xC000C000000000000000#80, four, four, 0x3FFD8000000000000000#80].map (fun r => some (r, 0, 7)) := by
  decide +kernel

/-- T42: 10 with the word integers 3 and 4, and with a long real 2.5. -/
theorem test_arithmetic_memory_forms :
    after (holding (machine 0x03FF [0x4002A000000000000000#80]) 0x2000 [3, 0]) [0xDE, 0x2E, 0, 0x20] view =
      some (0xC001E000000000000000#80, 0, 7) ∧
    after (holding (machine 0x03FF [0x4002A000000000000000#80]) 0x2000 [4, 0]) [0xDE, 0x3E, 0, 0x20] view =
      some (0x3FFDCCCCCCCCCCCCCCCD#80, flagP, 7) ∧
    after (holding (machine 0x03FF [0x4002A000000000000000#80]) 0x2000 [0, 0, 0, 0, 0, 0, 4, 0x40])
      [0xDC, 0x0E, 0, 0x20] view = some (0x4003C800000000000000#80, 0, 7) := by decide +kernel

/-- T34: 1 / 3 at three precisions, and rounding down at 53 bits. -/
theorem test_fdiv_rounds :
    ([0x03FF, 0x02FF, 0x00FF, 0x0AFF].map fun cw => after (machine cw [one, three]) [0xD8, 0xF1] view) =
    [0x3FFDAAAAAAAAAAAAAAAB#80, 0x3FFDAAAAAAAAAAAAA800#80, 0x3FFDAAAAAB0000000000#80, 0x3FFDAAAAAAAAAAAAB000#80].map
      (fun r => some (r, flagP, 6)) := by decide +kernel

/-- T38: 1 / 0 masked; unmasked nothing is popped. -/
theorem test_fdivp_by_zero :
    after (machine 0x03FF [zeroOf false, one]) [0xDE, 0xF9] view = some (infinity, flagZ, 7) ∧
    after (machine 0x03FB [zeroOf false, one]) [0xDE, 0xF9] view = some (zeroOf false, flagZ, 6) := by decide +kernel

/-- T47: square roots of 4 and 2, and of -1. -/
theorem test_fsqrt :
    ([four, two, minusOne].map fun v => after (machine 0x03FF [v]) [0xD9, 0xFA] view) =
    [some (two, 0, 7), some (0x3FFFB504F333F9DE6484#80, flagP, 7), some (indefinite, flagI, 7)] := by decide +kernel

/-- T48: 1.5 scaled by 3; overflow. -/
theorem test_fscale :
    after (machine 0x03FF [0x3FFFC000000000000000#80, three]) [0xD9, 0xFD] view =
      some (0x4002C000000000000000#80, 0, 6) ∧
    after (machine 0x03FF [one, ofInt 16384]) [0xD9, 0xFD] view = some (infinity, flagO ||| flagP, 6) := by
  decide +kernel

/-- Rounding down, overflow from denormals (11 R81): the operand's own significand under the largest exponent with integer
bit 0; either finite row with integer bit 1. -/
theorem test_fscale_denormal :
    scaleKept 0x07FF 0x00004000000000000001#80 32767 =
      .after (flagO ||| flagP) 0x7FFE4000000000000001#80 ∧
    scaleKept 0x07FF 0x00008000000000000001#80 32767 =
      .after (flagO ||| flagP) (scaleLargest 0x00008000000000000001#80 32767) := by
  constructor
  · decide +kernel
  · rfl

/-- T49: 23 mod 4 with quotient 5. -/
theorem test_fprem :
    after (machine 0x03FF [ofInt 23, four]) [0xD9, 0xF8] (fun t => (view t, t.npx.cc)) =
      some ((three, 0, 6), 0b0011#4) := by decide +kernel

/-- T52: 155.625 in the nearest and down modes. -/
theorem test_frndint :
    after (machine 0x03FF [0x40069BA0000000000000#80]) [0xD9, 0xFC] view = some (ofInt 156, flagP, 7) ∧
    after (machine 0x07FF [0x40069BA0000000000000#80]) [0xD9, 0xFC] view = some (ofInt 155, flagP, 7) := by
  decide +kernel

/-- T53: an exponent of -7. -/
theorem test_fxtract :
    after (machine 0x03FF [0x3FF88000000000000000#80]) [0xD9, 0xF4] (fun t => (view t, t.npx.st 1)) =
      some ((one, 0, 6), ofInt (-7)) := by decide +kernel

/-- T54. -/
theorem test_signs :
    after (machine 0x03FF [minusOne]) [0xD9, 0xE1] view = some (one, 0, 7) ∧
    after (machine 0x03FF [one]) [0xD9, 0xE0] view = some (minusOne, 0, 7) := by decide +kernel

/-- T60, T61, T62, T65: orderings, a pseudo zero, a NaN, the two infinities in both closures, a denormal. -/
theorem test_compare_outcomes :
    ([(0x03FF, two, one), (0x03FF, one, two), (0x03FF, three, three), (0x03FF, nought, zeroOf true), (0x03FF, nan, one),
      (0x03FF, infinity, infinityOf true), (0x13FF, infinity, infinityOf true), (0x03FF, tiny, zeroOf false)].map
        fun x => compareValues x.1 x.2.1 x.2.2) =
    [Out.pure .greater, .pure .less, .pure .equal, .pure .equal, .after flagI .unordered, .pure .equal, .pure .greater,
      .after flagD .greater] := by decide +kernel

/-- R251: the codes of the four outcomes, whatever C1. -/
theorem test_compare_codes (free : BitVec 4) :
    (ccOfOrder .greater free &&& 0b1101, ccOfOrder .less free &&& 0b1101, ccOfOrder .equal free &&& 0b1101,
      ccOfOrder .unordered free &&& 0b1101) = (0b0000#4, 0b0001#4, 0b1000#4, 0b1101#4) := by
  revert free; decide

/-- T60, T61, T63: FCOM of a NaN, FCOMP of a short real, FCOMPP: flags and TOP. -/
theorem test_compare_flags_and_pops :
    after (machine 0x03FF [nan, one]) [0xD8, 0xD1] view = some (nan, flagI, 6) ∧
    after (holding (machine 0x03FF [one]) 0x2000 [0, 0, 0, 0x40]) [0xD8, 0x1E, 0, 0x20]
      (fun t => (t.npx.flags, t.npx.top)) = some (0, 0) ∧
    after (machine 0x03FF [five, four]) [0xDE, 0xD9] (fun t => (tagWord t.npx.tags, t.npx.top)) =
      some (0xFFFF, 0) := by decide +kernel

/-- T64: of a NaN; T66. -/
theorem test_ftst_and_fxam :
    after (machine 0x03FF [nan]) [0xD9, 0xE4] view = some (nan, flagI, 7) ∧
    ([loose, nan, nought, one, infinity, minusOne, zeroOf true, tiny].map fun v =>
      after (machine 0x03FF [v]) [0xD9, 0xE5] (·.npx.cc)) =
    [0b0000#4, 0b0001#4, 0b0000#4, 0b0100#4, 0b0101#4, 0b0110#4, 0b1010#4, 0b1100#4].map some := by decide +kernel

/-- T75, T76: FLD1, FLDZ; a ninth push. -/
theorem test_constants :
    after (machine 0x03FF []) [0xD9, 0xE8] view = some (one, 0, 7) ∧
    after (machine 0x03FF []) [0xD9, 0xEE] (fun t => tagWord t.npx.tags) = some 0x7FFF ∧
    after (machine 0x03FF (List.replicate 8 one)) [0xD9, 0xEE] view = some (indefinite, flagI, 7) := by decide +kernel

/-- T71, T72: a stack fault of FYL2X and of FPTAN. -/
theorem test_transcendental_stack_faults :
    after (machine 0x03FF [one]) [0xD9, 0xF1] view = some (indefinite, flagI, 0) ∧
    after (machine 0x03FF (List.replicate 8 one)) [0xD9, 0xF2] (fun t => (view t, t.npx.st 1)) =
      some ((indefinite, flagI, 7), indefinite) := by decide +kernel

/-- T81, T84: FLDCW keeps all 16 bits; a recorded flag becomes an error. -/
theorem test_fldcw :
    after (holding (machine 0x03FF []) 0x2000 [0xFF, 0xFF]) [0xD9, 0x2E, 0, 0x20] (·.npx.cw) = some 0xFFFF ∧
    after (holding { machine 0x03FF [] with npx := (machine 0x03FF []).npx.raise flagI } 0x2000 [0x3E, 0x03])
      [0xD9, 0x2E, 0, 0x20] (fun t => (t.error, statusWord t.platform t.npx)) = some (true, 0x8081) := by decide +kernel

/-- T83: FNCLEX with an unmasked flag set. -/
theorem test_fnclex :
    after { machine 0x03FE [] with npx := (machine 0x03FE []).npx.raise flagI } [0xDB, 0xE2]
      (fun t => (t.error, statusWord t.platform t.npx)) = some (false, 0) := by decide +kernel

/-- T88: FRSTOR of an image whose status word has TOP = 6: ST(0) is physical register 6. -/
theorem test_frstor :
    after (holding (machine 0x03FF []) 0x3000 ([0x3E, 0x03, 0, 0x30, 0xFF, 0x0F] ++ List.replicate 8 0 ++
      [0, 0, 0, 0, 0, 0, 0, 0x80, 0xFF, 0x3F])) [0xDD, 0x26, 0, 0x30]
      (fun t => (t.npx.reg 6, tagWord t.npx.tags, t.npx.cw, t.npx.top)) = some (one, 0x0FFF, 0x033E, 6) := by
  decide +kernel

/-- T86: the environment in Real-Address format but for its status word, whose condition code is free. -/
theorem test_fnstenv :
    after { machine 0x03FF [one] with npx := { (machine 0x03FF [one]).npx with
        fipSel := 0x0100, fipOff := 0x0010, fop := 0x106, fdpSel := 0, fdpOff := 0x2004 } } [0xD9, 0x36, 0, 0x30]
      (fun t => (bytesAt 0x3000 14 t, t.npx.imagePending)) =
    some ([0xFF, 0x03, 0x00, 0x38, 0xFF, 0x3F, 0x10, 0x10, 0x06, 0x01, 0x04, 0x20, 0, 0], true) := by decide +kernel

/-- T90, T85. -/
theorem test_fsetpm_and_fincstp :
    after (machine 0x03FF []) [0xDB, 0xE4] (·.npx.pm) = some true ∧
    after (machine 0x03FF [one]) [0xD9, 0xF7] (fun t => (t.npx.top, tagWord t.npx.tags)) = some (0, 0x3FFF) := by
  decide +kernel

/-- T93, T94: TS set, and an unmasked exception pending: the link is the ESC. (Reset CS:IP is F000:FFF0.) -/
theorem test_interrupts_7_and_16 :
    after (holding { machine 0x03FF [] with cpu := { Cpu.reset with ts := true } } 28 [0x77, 0, 0, 0]) [0xD9, 0xE8]
      (fun t => (t.cpu.ip, bytesAt 0xFFFA 4 t, t.npx.top)) = some (0x77, [0xF0, 0xFF, 0, 0xF0], 0) ∧
    after (holding { machine 0x03FE [] with npx := (machine 0x03FE []).npx.raise flagI } 64 [0x55, 0, 0, 0]) [0xD9, 0xE8]
      (fun t => (t.cpu.ip, bytesAt 0xFFFA 4 t, t.npx.top)) = some (0x55, [0xF0, 0xFF, 0, 0xF0], 0) := by decide +kernel

/-- T97: the first word outside the segment, and a later word. -/
theorem test_interrupts_13_and_9 :
    after (holding (machine 0x03FF []) 52 [0x13, 0, 0, 0]) [0xDF, 0x06, 0xFF, 0xFF] (·.cpu.ip) = some 0x13 ∧
    after { machine 0x03FF [] with
        cpu := { Cpu.reset with protectedMode := true, ds := { SegReg.reset with limit := 0x00FF } }
        platform := { Platform.reset with gate9 := { Gate.reset none with entry := 0x0909 } } }
      [0xDD, 0x06, 0xFC, 0x00] (·.cpu.ip) = some 0x0909 := by decide +kernel

/-- T63: after C0 and FSTSW AX, SAHF gives CF. -/
theorem test_sahf : (sahf { State.reset with cpu := { Cpu.reset with ax := 0x0100 } }).cpu.cf = true := by decide

/-- The refusals: MP with EM, an ESC before the WAIT after an image, PC = 01B, an unassigned code. -/
theorem test_refusals :
    refusal { machine 0x03FF [] with cpu := { Cpu.reset with mp := true, em := true } } [0xD9, 0xE8] = some .mpAndEmSet ∧
    refusal { machine 0x03FF [] with npx := { Npx.reset with imagePending := true } } [0xD9, 0xE8] =
      some .escBeforeWait ∧
    refusal (machine 0x01FF [one, one]) [0xD8, 0xC1] = some .reservedPrecision ∧
    refusal (machine 0x03FF []) [0xD9, 0xD1] = some .unassignedEsc := by decide +kernel

/-! ## Unnormals, and the NPX after interrupt 9 -/

/-- 0 + X is X exactly, X + (-X) is a true zero (11 R86); a choice of results that would show a difference. -/
theorem test_unnormal_sums :
    let ch : Config.UnnormalChoice := { lead := 7, drop := 9, up := true, normal := true, expo := 77 }
    addValues 0x03FF (zeroOf true) false loose ch = { flags := 0, value := some loose } ∧
    addValues 0x03FF loose true (zeroOf false) ch = { flags := 0, value := some loose } ∧
    addValues 0x03FF loose true loose ch = { flags := 0, value := some (zeroOf false) } ∧
    addValues 0x03FF tiny false (zeroOf false) ch = { flags := flagU, value := some tiny } := by decide +kernel

/-- Two unnormals of 63 leading zeros each: overflow, underflow, and a pseudo zero above the product (41 R192 (6)). -/
theorem test_unnormal_products :
    let ch : Config.UnnormalChoice := { lead := 7, drop := 9, up := true, normal := true, expo := 0 }
    mulValues 0x03FF (packReal false 0x7FFE 1) (packReal false 0x7FFE 1) ch =
      { flags := flagO ||| flagP, value := some (infinityOf false) } ∧
    mulValues 0x03FF tiny tiny ch = { flags := flagU ||| flagP, value := some (zeroOf false) } ∧
    mulValues 0x03FF (packReal false 0x403E 1) (packReal false 0x403E 1) ch =
      { flags := flagP, value := some (packReal false 0x403F 0) } := by decide +kernel

/-- FPATAN of Y = 0 (43 R286). -/
theorem test_patan_of_zero (draw : Nat) : ∃ neg, patanValue 0x03FF draw one (zeroOf false) = .pure (zeroOf neg) :=
  ⟨_, rfl⟩

/-- A normal plus a smaller unnormal is normal (11 R74), within one unit of the bits kept (11 R75): 1 + 0.5 with all bits
kept, and with one bit kept, downwards and upwards. -/
theorem test_normal_class :
    let ch : Config.UnnormalChoice := { lead := 5, drop := 0, up := true, normal := false, expo := 0 }
    addValues 0x03FF one false loose ch = .pure 0x3FFFC000000000000000#80 ∧
    addValues 0x03FF one false loose { ch with drop := 63, up := false } = { flags := flagP, value := some one } ∧
    addValues 0x03FF one false loose { ch with drop := 63 } = { flags := flagP, value := some two } := by decide +kernel

/-- A pseudo zero is an unnormal to FIST (11 R76, 40 R176); X + X of an unnormal is unnormal (11 R74), and two unnormals of
equal value too, whatever the open choice says. -/
theorem test_unnormal_class :
    let ch : Config.UnnormalChoice := { lead := 0, drop := 0, up := false, normal := true, expo := 0 }
    storeInt 0x03FF 16 nought = { flags := flagI, value := some 0x8000 } ∧
    (addValues 0x03FF loose false loose ch).value.map classOf = some .unnormal ∧
    (addValues 0x03FF loose false (packReal false 0x4000 (2 ^ 61)) ch).value.map classOf = some .unnormal := by
  decide +kernel

/-- An unassigned ESC code with TS is interrupt 7 (60 R392); with no NPX it only passes (70 R426). -/
theorem test_unassigned_code :
    after (holding { machine 0x03FF [] with cpu := { Cpu.reset with ts := true } } 28 [0x07, 0, 0, 0]) [0x26, 0xD9, 0xD1]
      (fun t => (t.cpu.ip, bytesAt 0xFFFA 2 t)) = some (0x07, [0xF0, 0xFF]) ∧
    after { machine 0x03FF [] with platform := { Platform.reset with npxPresent := false } } [0x26, 0xD9, 0x4E, 0x10]
      (·.cpu.ip) = some 0xFFF4 := by decide +kernel

/-- An interrupted transfer that will set P and pop. -/
def popping : InFlight where
  opcode := 0
  operandSel := 0
  operandOff := 0
  wordsLeft := 1
  sets := flagP
  clears := 0
  oldCc := 0
  cc := 0
  oldTop := 0
  top := 1

/-- FNSTSW while it is stuck: TOP 0 or 1, P or not, C0 as it was or as it will be (70 R442), whatever the NPX holds now. -/
theorem test_status_in_flight :
    let n := { Npx.reset with cc := 0b0110#4, top := 5 }
    statusInFlight Platform.reset n { popping with oldCc := 1 } 0b00000000000#11 = 0x8100 ∧
    statusInFlight Platform.reset n { popping with oldCc := 1 } 0b11111111111#11 = 0x8820 := by decide +kernel

/-! ## For every statement with hypotheses, cases that meet them -/

theorem passed_of {s : State}
    (h : (s.platform.npxPresent && !s.cpu.em && !s.cpu.ts && !s.npx.imagePending) = true) : Passed s := by
  simp only [Bool.and_eq_true, Bool.not_eq_true'] at h
  exact ⟨h.1.1.1, h.1.1.2, h.1.2, h.2⟩

/-- ERROR active: invalid operation, unmasked. -/
def failing : State := { machine 0x03FE [] with npx := (machine 0x03FE []).npx.raise flagI }

/-- The NEU busy with it. -/
def stuck : State := { machine 0x03FF [] with npx := { Npx.reset with inFlight := some popping } }

/-- The NEU waiting for a WAIT after an image. -/
def imaging : State := { machine 0x03FF [] with npx := { Npx.reset with imagePending := true } }

/-- The reset machine with the MSW bits MP, EM, TS. -/
def withMsw (s : State) (mp em ts : Bool) : State := { s with cpu := { s.cpu with mp := mp, em := em, ts := ts } }

/-- ST = 1.0, ST(1) = 4.0. -/
def pair : State := machine 0x03FF [one, four]

def full : State := machine 0x03FF (List.replicate 8 one)

def empty : State := machine 0x03FF []

theorem empty_ready : Ready empty := ready_of (by decide +kernel)
theorem pair_ready : Ready pair := ready_of (by decide +kernel)
theorem full_ready : Ready full := ready_of (by decide +kernel)

theorem witness_DecodeEncodeRoundTrip :
    (Instr.faddM64r [.cs, .es, .ss, .ds, .cs, .cs] (.base16 .bp 0xFFFF)).WellFormed = true ∧
    (Instr.fwait []).WellFormed = true ∧ (Instr.ffreeSti [] 7).WellFormed = true := by decide

theorem witness_DecodingDeterminesTheBytes :
    decode [0x2E, 0xDF, 0x76, 0xF0, 0x90] = .ok (.fbstpM80d [.cs] (.base8 .bp 0xF0), [0x90]) ∧
    (Instr.fbstpM80d [.cs] (.base8 .bp 0xF0)).operand = some (.base8 .bp 0xF0) := ⟨rfl, rfl⟩

theorem witness_UnassignedCodesRefused :
    0xD8 ≤ (0xD8 : Byte).toNat ∧ (0xDF : Byte).toNat ≤ 0xDF ∧ unassigned 0xD8 0xC0 = false ∧
    unassigned 0xDF 0xE1 = true := by decide

theorem witness_StepRunsTheDecodedInstruction :
    (State.reset.withFetchBytes [0xD9, 0xE8]).fetchWindow = encode (.fld1 []) ++ List.replicate 8 0 ∧
    (Instr.fld1 []).WellFormed = true ∧
    decode (State.reset.withFetchBytes [0xD9, 0xE8]).fetchWindow = .ok (.fld1 [], List.replicate 8 0) ∧
    decode State.reset.fetchWindow = .error .cpuInstruction ∧
    (∀ s ∈ [withMsw empty true true false, withMsw empty false true false, withMsw empty false false true, empty, imaging,
        { empty with platform := { Platform.reset with npxPresent := false } }],
      refusedAs (s.withFetchBytes [0xD9, 0xD1]).fetchWindow = some .unassignedEsc) :=
  ⟨by decide +kernel, by decide, by rfl, by rfl, by decide +kernel⟩

theorem witness_InvariantKept :
    (Inv (State.reset.withFetchBytes [0xD9, 0xE8]) ∧ ∃ t, step (State.reset.withFetchBytes [0xD9, 0xE8]) = .next t) ∧
    (Inv (imaging.withFetchBytes [0x9B]) ∧ ∃ t, step (imaging.withFetchBytes [0x9B]) = .next t) ∧
    (Inv (stuck.withFetchBytes [0xDD, 0x36, 0, 0]) ∧ ∃ t, step (stuck.withFetchBytes [0xDD, 0x36, 0, 0]) = .next t) :=
  ⟨⟨inv_of (by decide +kernel), next_of (by decide +kernel)⟩,
    ⟨inv_of (by decide +kernel), next_of (by decide +kernel)⟩, inv_of (by decide +kernel), next_of (by decide +kernel)⟩

theorem witness_HostAndModeKept :
    (∃ t, exec (.fsetpm []) empty = .next t ∧ t.npx.pm ≠ empty.npx.pm) ∧ (∃ t, exec (.fnstswAx []) empty = .next t) ∧
    ∃ t, exec (.fldz []) { empty with npx := { empty.npx with pm := true } } = .next t :=
  ⟨⟨_, rfl, by decide +kernel⟩, next_of (by decide +kernel), next_of (by decide +kernel)⟩

theorem witness_FlagsAndControlWordWriters :
    (∃ t, exec (.fldz []) full = .next t) ∧ (∃ t, exec (.fnclex []) failing = .next t) ∧
    (∃ t, exec (.fldcwM2 [] (.direct 0)) empty = .next t) ∧ ∃ t, exec (.fnstenvM14 [] (.direct 0)) empty = .next t :=
  ⟨next_of (by decide +kernel), next_of (by decide +kernel), next_of (by decide +kernel), next_of (by decide +kernel)⟩

theorem witness_NotAvailableTrap :
    ((withMsw empty false true false).cpu.mp && (withMsw empty false true false).cpu.em) = false ∧
    isWait (.fld1 []) = false ∧ (withMsw empty false true false).cpu.em = true ∧
    (withMsw empty true false true).cpu.ts = true ∧ isWait (.fwait []) = true ∧
    (withMsw empty true false true).cpu.mp = true ∧
    ((withMsw empty true false true).cpu.mp && (withMsw empty true false true).cpu.em) = false := by decide

theorem witness_NumericErrorTrap :
    noWait (.fld1 []) = false ∧ noWait (.fwait []) = false ∧ failing.platform.npxPresent = true ∧ failing.error = true ∧
    failing.cpu.em = false ∧ failing.cpu.ts = false ∧ failing.npx.imagePending = false ∧ failing.npx.busy = false ∧
    (failing.cpu.mp && failing.cpu.ts) = false := by decide +kernel

theorem witness_ProtectionTrap :
    Ready empty ∧ (Instr.fldM32r [] (.direct 0xFFFF)).operand = some (.direct 0xFFFF) ∧
    transfer (.fldM32r [] (.direct 0xFFFF)) = some (2, false) ∧ precisionReserved empty.npx.cw = false ∧
    (empty.operandSegment (.fldM32r [] (.direct 0xFFFF)) (.direct 0xFFFF)).wordsInside
      (empty.operandOffset (.direct 0xFFFF)) 2 false = 0 ∧
    transfer (.fnsaveM94 [] (.direct 0xFFFF)) = some (47, true) ∧
    (empty.operandSegment (.fnsaveM94 [] (.direct 0xFFFF)) (.direct 0xFFFF)).wordsInside
      (empty.operandOffset (.direct 0xFFFF)) 47 true = 0 :=
  ⟨empty_ready, rfl, rfl, by decide +kernel, by decide +kernel, rfl, by decide +kernel⟩

/-- One word inside of four, and three of four. -/
theorem witness_SegmentOverrunTrap :
    Ready empty ∧ precisionReserved empty.npx.cw = false ∧
    (arithMemForm (.faddM64r [] (.direct 0xFFFE))).isSome ∧ (compareMemForm (.fcomM64r [] (.direct 0xFFFE))).isSome ∧
    (loadForm (.fildM64i [] (.direct 0xFFFA))).isSome ∧ (realLoadForm (.fldM64r [] (.direct 0xFFFA))).isSome ∧
    transfer (.faddM64r [] (.direct 0xFFFE)) = some (4, false) ∧
    (empty.operandSegment (.faddM64r [] (.direct 0xFFFE)) (.direct 0xFFFE)).wordsInside
      (empty.operandOffset (.direct 0xFFFE)) 4 false = 1 ∧
    (empty.operandSegment (.fldM64r [] (.direct 0xFFFA)) (.direct 0xFFFA)).wordsInside
      (empty.operandOffset (.direct 0xFFFA)) 4 false = 3 :=
  ⟨empty_ready, by decide +kernel, by decide, by decide, by decide, by decide, rfl, by decide +kernel,
    by decide +kernel⟩

/-- A store with a value, one word inside and all but one; the images, on an NPX with ERROR active. -/
theorem witness_SegmentOverrunTrap_stores :
    (Ready pair ∧ (storeForm (.fstpM80r [] (.direct 0xFFFE))).isSome ∧
      (storeForm (.fistM32i [] (.direct 0xFFFE))).isSome ∧
      ((pair.npx.fetch 0).andThen fun v => storeInt pair.npx.cw 32 v).value = some 1 ∧
      (pair.operandSegment (.fstpM80r [] (.direct 0xFFFE)) (.direct 0xFFFE)).wordsInside
        (pair.operandOffset (.direct 0xFFFE)) 5 true = 1 ∧
      (pair.operandSegment (.fstpM80r [] (.direct 0xFFF8)) (.direct 0xFFF8)).wordsInside
        (pair.operandOffset (.direct 0xFFF8)) 5 true = 4) ∧
    (Ready empty ∧ (empty.operandSegment (.fldenvM14 [] (.direct 0xFFFE)) (.direct 0xFFFE)).wordsInside
        (empty.operandOffset (.direct 0xFFFE)) 7 false = 1 ∧
      (empty.operandSegment (.frstorM94 [] (.direct 0xFFA4)) (.direct 0xFFA4)).wordsInside
        (empty.operandOffset (.direct 0xFFA4)) 47 false = 46) ∧
    Passed failing ∧ failing.npx.busy = false ∧
    (failing.operandSegment (.fnstenvM14 [] (.direct 0xFFF4)) (.direct 0xFFF4)).wordsInside
      (failing.operandOffset (.direct 0xFFF4)) 7 true = 6 ∧
    (failing.operandSegment (.fnsaveM94 [] (.direct 0xFFFE)) (.direct 0xFFFE)).wordsInside
      (failing.operandOffset (.direct 0xFFFE)) 47 true = 1 :=
  ⟨⟨pair_ready, rfl, rfl, by decide +kernel, by decide +kernel, by decide +kernel⟩,
    ⟨empty_ready, by decide +kernel, by decide +kernel⟩, passed_of (by decide +kernel), by decide +kernel,
    by decide +kernel, by decide +kernel⟩

theorem witness_InterruptEntry :
    empty.cpu.protectedMode = false ∧ empty.mem.wf = true ∧
    ([IntVector.notAvailable, .segmentOverrun, .protection, .npxError].all fun v => (List.range 4).all fun k =>
      !(empty.addresses empty.cpu.ss (empty.cpu.sp - 6) 6).contains (4 * v.number + k)) = true := by decide +kernel

theorem witness_InterruptReturn : empty.cpu.protectedMode = false ∧ empty.mem.wf = true := by decide +kernel

theorem witness_OutsideTheSpecRefused :
    ((withMsw empty true true false).cpu.mp = true ∧ (withMsw empty true true false).cpu.em = true) ∧
    (isWait (.fld1 []) = false ∧ imaging.platform.npxPresent = true ∧ imaging.cpu.em = false ∧
      imaging.cpu.ts = false ∧ imaging.npx.imagePending = true) ∧
    usesPrecision (.fsqrt []) = true ∧ usesPrecision (.faddStSti [] 1) = true ∧
    usesPrecision (.fidivM16i [] (.direct 0)) = true ∧ Ready (machine 0x01FF [one]) ∧
    precisionReserved (machine 0x01FF [one]).npx.cw = true :=
  ⟨by decide, by decide +kernel, rfl, rfl, rfl, ready_of (by decide +kernel), by decide +kernel⟩

/-- After an image; with no NPX; and with ERROR active and EM set. -/
theorem witness_WaitCompletes :
    ({ empty with platform := { Platform.reset with npxPresent := false } } : State).platform.npxPresent = false ∧
    (empty.cpu.mp && empty.cpu.em) = false ∧ (empty.cpu.mp && empty.cpu.ts) = false ∧
    (imaging.platform.npxPresent = true ∧ imaging.npx.busy = false ∧ (imaging.cpu.mp && imaging.cpu.em) = false ∧
      (imaging.cpu.mp && imaging.cpu.ts) = false ∧ imaging.error = false) ∧
    (withMsw failing false true true).platform.npxPresent = true ∧ (withMsw failing false true true).npx.busy = false ∧
    ((withMsw failing false true true).cpu.mp && (withMsw failing false true true).cpu.em) = false ∧
    ((withMsw failing false true true).cpu.mp && (withMsw failing false true true).cpu.ts) = false ∧
    (withMsw failing false true true).cpu.em = true := by decide +kernel

theorem witness_StatusWordLayout :
    Platform.reset.iemGatesError = false ∧ { Platform.reset with iemGatesError := true }.iemGatesError = true ∧
    (statusWord Platform.reset failing.npx).getLsbD 7 = true := by decide +kernel

/-- A form without and one with a pop; with a result and (unmasked, an empty register) without. -/
theorem witness_ArithmeticRegisterForms :
    arithRegForm (.fdivrStSti [] 1) = some (.div, true, 0, 1, 0) ∧
    arithRegForm (.fsubpStiSt [] 1) = some (.sub, false, 1, 0, 1) ∧ Ready pair ∧
    precisionReserved pair.npx.cw = false ∧
    (((pair.npx.fetchSource 1).andThen fun a => (pair.npx.fetchSource 0).andThen fun b =>
      arith pair.npx.cw .sub false a b).value = some three) ∧
    Ready (machine 0x03FE []) ∧ precisionReserved (machine 0x03FE []).npx.cw = false ∧
    ((machine 0x03FE []).npx.fetchSource 0).value = none :=
  ⟨rfl, rfl, pair_ready, by decide +kernel, by decide +kernel, ready_of (by decide +kernel), by decide +kernel,
    by decide +kernel⟩

/-- At the last offset of the segment that fits. -/
theorem witness_ArithmeticMemoryForms :
    arithMemForm (.fisubrM32i [] (.direct 0xFFFC)) = some (.sub, true, .direct 0xFFFC, .int) ∧ Ready pair ∧
    precisionReserved pair.npx.cw = false ∧ OperandFits pair (.fisubrM32i [] (.direct 0xFFFC)) (.direct 0xFFFC) 2 false :=
  ⟨rfl, pair_ready, by decide +kernel, by unfold OperandFits; decide +kernel⟩

/-- 4 + 1, 1 - 4, 4 * 1, 1 / 4, the last two at 24 bits. -/
theorem witness_ExactResultsAreDelivered :
    precisionReserved 0x03FF = false ∧ precisionReserved 0x00FF = false ∧ classOf one = .normal ∧
    classOf four = .normal ∧ classOf five = .normal ∧ regVal five = regVal four + regVal one ∧
    sigOf five % 2 ^ (64 - precision 0x03FF) = 0 ∧ classOf (withSign true three) = .normal ∧
    sigOf (withSign true three) % 2 ^ (64 - precision 0x03FF) = 0 ∧
    regVal (withSign true three) = regVal one - regVal four ∧ sigOf four % 2 ^ (64 - precision 0x00FF) = 0 ∧
    regVal four = regVal four * regVal one ∧ classOf 0x3FFD8000000000000000#80 = .normal ∧
    sigOf 0x3FFD8000000000000000#80 % 2 ^ (64 - precision 0x00FF) = 0 ∧
    regVal 0x3FFD8000000000000000#80 = regVal one / regVal four := by decide +kernel

theorem witness_ExactCancellation :
    classOf one = .normal ∧ classOf minusOne = .normal ∧ regVal one = regVal one ∧ regVal one = -regVal minusOne := by
  decide +kernel

/-- 5/2, a tie on the grid 1, and 0. -/
theorem witness_RoundingIsCorrect :
    ({ num := 5, den := 2, exp := 0 } : Config.Mag).den ≠ 0 ∧ ({ num := 0, den := 1, exp := 0 } : Config.Mag).den ≠ 0 ∧
    |magVal { num := 5, den := 2, exp := 0 } / (2 : ℚ) ^ (0 : Int) -
      (roundAt .nearest false { num := 5, den := 2, exp := 0 } 0).count| = 1 / 2 := by decide +kernel

/-- The smallest normal; the largest finite magnitude; the least and the greatest x for one l, inexact at 24 bits. -/
theorem witness_PrecisionFlagMeansInexact :
    ((2 : ℚ) ^ (-16382 : Int) ≤ magVal { num := 1, den := 1, exp := -16382 } ∧
      magVal { num := 1, den := 1, exp := -16382 } < (2 : ℚ) ^ (-16381 : Int) ∧
      (deliver 0x03FF 64 false { num := 1, den := 1, exp := -16382 }).flags &&& flagO = 0) ∧
    ((2 : ℚ) ^ (16383 : Int) ≤ magVal { num := 2 ^ 64 - 1, den := 1, exp := 16320 } ∧
      magVal { num := 2 ^ 64 - 1, den := 1, exp := 16320 } < (2 : ℚ) ^ (16384 : Int) ∧
      (deliver 0x03FF 64 true { num := 2 ^ 64 - 1, den := 1, exp := 16320 }).flags &&& flagO = 0) ∧
    (2 : ℚ) ^ (63 : Int) ≤ magVal { num := 2 ^ 64 - 1, den := 1, exp := 0 } ∧
    magVal { num := 2 ^ 64 - 1, den := 1, exp := 0 } < (2 : ℚ) ^ (64 : Int) ∧
    (deliver 0x03FF 24 false { num := 2 ^ 64 - 1, den := 1, exp := 0 }).flags &&& flagO = 0 := by decide +kernel

/-- Just below 2^-16382; just below 2^16384, where 64 bits hold the value and where they round it up; 2^16384. -/
theorem witness_UnderflowAndOverflow :
    ((2 : ℚ) ^ (-16383 : Int) ≤ magVal { num := 2 ^ 64 - 1, den := 1, exp := -16446 } ∧
      magVal { num := 2 ^ 64 - 1, den := 1, exp := -16446 } < (2 : ℚ) ^ (-16382 : Int)) ∧
    masked 0x03FF flagU = true ∧ masked 0x03EF flagU = false ∧
    ((2 : ℚ) ^ (16383 : Int) ≤ magVal { num := 2 ^ 65 - 1, den := 1, exp := 16319 } ∧
      magVal { num := 2 ^ 65 - 1, den := 1, exp := 16319 } < (2 : ℚ) ^ (16384 : Int) ∧
      RoundsTo (rounding 0x03FF) false (magVal { num := 2 ^ 65 - 1, den := 1, exp := 16319 } / (2 : ℚ) ^ (16320 : Int))
        (2 ^ 64) ∧
      (2 : ℚ) ^ (16384 : Int) ≤ ((2 ^ 64 : Nat) : ℚ) * (2 : ℚ) ^ (16320 : Int)) ∧
    (2 : ℚ) ^ (16384 : Int) ≤ magVal { num := 1, den := 1, exp := 16384 } ∧ masked 0x03FF flagO = true := by
  refine ⟨by decide +kernel, by decide, by decide, ⟨by decide +kernel, by decide +kernel, ?_, by decide +kernel⟩,
    by decide +kernel, by decide⟩
  change _ ∧ _ ∧ _
  decide +kernel

theorem witness_DivisionByZero :
    classOf one = .normal ∧ classOf (zeroOf true) = .zero ∧ classOf infinity = .infinity ∧ classOf one ≠ .nan ∧
    classOf one ≠ .denormal ∧ classOf tiny = .denormal ∧ classOf loose = .unnormal ∧ classOf nought = .pseudoZero := by
  decide +kernel

/-- A NaN with a number, two NaNs of unequal and of equal significands; denormals in a register and in memory. -/
theorem witness_NanOperands :
    classOf nan = .nan ∧ classOf indefinite = .nan ∧ classOf one ≠ .denormal ∧ classOf nan ≠ .denormal ∧
    sigOf indefinite ≤ sigOf nan ∧ ¬ sigOf nan ≤ sigOf indefinite ∧ sigOf nan ≤ sigOf nan ∧
    classOf tiny = .denormal ∧ (ofReg tiny).denormal = true ∧ (ofReg one).denormal = false ∧
    (loadReal shortReal 1).denormal = true ∧ (0x03FF : Word).getLsbD 1 = true ∧ (0x03FD : Word).getLsbD 1 = false := by
  decide +kernel

theorem witness_InfinityArithmetic :
    classOf infinity = .infinity ∧ classOf (infinityOf true) = .infinity ∧ classOf one = .normal ∧
    classOf (zeroOf true) = .zero ∧ (0x13FF : Word).getLsbD 12 = true ∧ (0x03FF : Word).getLsbD 12 = false := by
  decide +kernel

/-- With a value, with an empty ST, and unmasked without a value. -/
theorem witness_UnaryForms :
    (unaryForm (.fsqrt [])).isSome ∧ (unaryForm (.frndint [])).isSome ∧ (unaryForm (.f2xm1 [])).isSome ∧ Ready pair ∧
    precisionReserved pair.npx.cw = false ∧ (sqrtValue pair.npx.cw (pair.npx.st 0)).value = some one ∧ Ready empty ∧
    empty.npx.isEmpty 0 = true ∧ Ready (machine 0x03FE [minusOne]) ∧
    (sqrtValue 0x03FE minusOne).value = none ∧ pair.npx.isEmpty 0 = false :=
  ⟨rfl, rfl, rfl, pair_ready, by decide +kernel, by decide +kernel, empty_ready, by decide +kernel,
    ready_of (by decide +kernel), by decide +kernel, by decide +kernel⟩

theorem witness_SignInstructions :
    Ready pair ∧ pair.npx.isEmpty 0 = false ∧ Ready empty ∧ empty.npx.isEmpty 0 = true ∧
    empty.npx.cw.getLsbD 0 = true ∧ Ready (machine 0x03FE []) ∧ (machine 0x03FE []).npx.isEmpty 0 = true ∧
    (machine 0x03FE []).npx.cw.getLsbD 0 = false :=
  ⟨pair_ready, by decide +kernel, empty_ready, by decide +kernel, by decide +kernel, ready_of (by decide +kernel),
    by decide +kernel, by decide +kernel⟩

/-- An exact root, a root to round (2, between 1 and 4), and the other classes, in both closures. -/
theorem witness_ExactSquareRoots :
    classOf four = .normal ∧ classOf two = .normal ∧ signOf two = false ∧
    sigOf two % 2 ^ (64 - precision 0x00FF) = 0 ∧ regVal two * regVal two = regVal four ∧
    classOf (zeroOf true) = .zero ∧ classOf minusOne = .normal ∧ signOf minusOne = true ∧ classOf loose = .unnormal ∧
    classOf nought = .pseudoZero ∧ classOf tiny = .denormal ∧
    (precisionReserved 0x03FF = false ∧ signOf two = false ∧ (4 : ℚ) ^ (0 : Int) ≤ regVal two ∧
      regVal two < (4 : ℚ) ^ ((0 : Int) + 1) ∧ (sqrtValue 0x03FF two).flags = flagP) ∧
    classOf nan = .nan ∧ classOf infinity = .infinity ∧ classOf (infinityOf true) = .infinity ∧
    (0x13FF : Word).getLsbD 12 = true ∧ (0x03FF : Word).getLsbD 12 = false := by decide +kernel

/-- 1.5, a tie in the nearest mode. -/
theorem witness_RoundToInteger :
    classOf 0x3FFFC000000000000000#80 = .normal ∧ |(2 : ℚ) - regVal 0x3FFFC000000000000000#80| = 1 / 2 := by
  decide +kernel

theorem witness_ScaleForm :
    Ready pair ∧ (pair.npx.isEmpty 0 || pair.npx.isEmpty 1) = false ∧ Ready empty ∧ empty.npx.isEmpty 1 = true :=
  ⟨pair_ready, by decide +kernel, empty_ready, by decide +kernel⟩

/-- From the largest binade to the smallest and back, and by a zero; -2.7, chopped to -2; 32768, -32769 and 0.5, out of
range; a NaN, infinities, a zero, a denormal and an unnormal. -/
theorem witness_ScaleByAnInteger :
    classOf 0x7FFE8000000000000000#80 = .normal ∧ classOf 0x00018000000000000000#80 = .normal ∧
    classOf (ofInt (-32765)) = .normal ∧ regVal (ofInt (-32765)) = ((-32765 : Int) : ℚ) ∧
    classOf (ofInt 32765) = .normal ∧ regVal (ofInt 32765) = ((32765 : Int) : ℚ) ∧
    regVal 0x00018000000000000000#80 = regVal 0x7FFE8000000000000000#80 * (2 : ℚ) ^ (-32765 : Int) ∧
    regVal 0x7FFE8000000000000000#80 = regVal 0x00018000000000000000#80 * (2 : ℚ) ^ (32765 : Int) ∧
    classOf (zeroOf true) = .zero ∧ regVal (zeroOf true) = ((0 : Int) : ℚ) ∧
    (let k : TempReal := 0xC000ACCCCCCCCCCCCCCD#80
     classOf k = .normal ∧ 1 ≤ |regVal k| ∧ -32768 ≤ regVal k ∧ |((-2 : Int) : ℚ)| ≤ |regVal k| ∧
     |regVal k| < |((-2 : Int) : ℚ)| + 1 ∧ regVal one = regVal four * (2 : ℚ) ^ (-2 : Int)) ∧
    (32768 ≤ regVal (ofInt 32768) ∧ regVal (ofInt (-32769)) < -32768 ∧ |regVal half| < 1) ∧
    ([nan, infinity, zeroOf true, tiny, loose].map classOf = [.nan, .infinity, .zero, .denormal, .unnormal]) := by
  decide +kernel

/-- Complete, incomplete and invalid. -/
theorem witness_RemainderForm :
    Ready pair ∧ (premValue 0x03FF one four).value = some (one, .complete 0) ∧ Ready empty ∧
    empty.npx.isEmpty 0 = true ∧ (premValue 0x03FF five (zeroOf false)).value = some (indefinite, .invalid) :=
  ⟨pair_ready, by decide +kernel, empty_ready, by decide +kernel, by decide +kernel⟩

/-- Exponents 63 and 64 apart; the special operands. -/
theorem witness_RemainderIsExact :
    classOf 0x403E8000000000000000#80 = .normal ∧ classOf three = .normal ∧ classOf one = .normal ∧
    magLog (magOf 0x403E8000000000000000#80) - magLog (magOf one) = 63 ∧
    classOf 0x403F8000000000000000#80 = .normal ∧
    magLog (magOf 0x403F8000000000000000#80) - magLog (magOf one) = 64 ∧
    (2 : ℚ) ^ (-16382 : Int) ≤ magVal (magOf four) - 1 * magVal (magOf three) ∧
    ⌊magVal (magOf four) / magVal (magOf three)⌋.toNat = 1 ∧
    [nan, infinity, zeroOf true, tiny, loose, nought].map classOf =
      [.nan, .infinity, .zero, .denormal, .unnormal, .pseudoZero] := by decide +kernel

theorem witness_ExtractForm :
    (Ready pair ∧ pair.npx.isEmpty 0 = false ∧ pair.npx.isEmpty 7 = true ∧ classOf (pair.npx.st 0) = .normal) ∧
    (∀ v ∈ [loose, nought, tiny, zeroOf true, infinity, nan], Ready (machine 0x03FF [v]) ∧
      (machine 0x03FF [v]).npx.isEmpty 0 = false ∧ (machine 0x03FF [v]).npx.isEmpty 7 = true ∧
      (machine 0x03FF [v]).npx.st 0 = v) ∧
    ([loose, nought, tiny, zeroOf true, infinity, nan].map classOf =
      [.unnormal, .pseudoZero, .denormal, .zero, .infinity, .nan]) ∧
    (Ready empty ∧ empty.npx.isEmpty 0 = true) ∧ Ready full ∧ full.npx.isEmpty 7 = false := by
  refine ⟨⟨pair_ready, by decide +kernel, by decide +kernel, by decide +kernel⟩, ?_, by decide +kernel,
    ⟨empty_ready, by decide +kernel⟩, full_ready, by decide +kernel⟩
  simp only [List.forall_mem_cons]
  refine ⟨?_, ?_, ?_, ?_, ?_, ?_, fun _ h => by cases h⟩ <;>
    exact ⟨ready_of (by decide +kernel), by decide +kernel, by decide +kernel, by decide +kernel⟩

theorem witness_ConstantsArePushed :
    constForm (.fldpi []) = some piReal ∧ Ready empty ∧ empty.npx.isEmpty 7 = true ∧ Ready full ∧
    full.npx.isEmpty 7 = false ∧ full.npx.cw.getLsbD 0 = true ∧ Ready (machine 0x03FE (List.replicate 8 one)) ∧
    (machine 0x03FE (List.replicate 8 one)).npx.isEmpty 7 = false :=
  ⟨rfl, empty_ready, by decide +kernel, full_ready, by decide +kernel, by decide +kernel, ready_of (by decide +kernel),
    by decide +kernel⟩

/-- In range; Y = 0; operands outside it, one of them normal; an empty ST(1). -/
theorem witness_TranscendentalsOfTwoOperands :
    ((transc2Form (.fyl2x [])).isSome ∧ Ready pair ∧ pair.npx.isEmpty 0 = false ∧ pair.npx.isEmpty 1 = false ∧
      yl2xInRange (pair.npx.st 0) (pair.npx.st 1) = true ∧ patanInRange (pair.npx.st 1) (pair.npx.st 0) = false) ∧
    ((transc2Form (.fpatan [])).isSome ∧ Ready (machine 0x03FF [one, zeroOf true]) ∧
      (machine 0x03FF [one, zeroOf true]).npx.isEmpty 0 = false ∧
      (machine 0x03FF [one, zeroOf true]).npx.isEmpty 1 = false ∧ patanInRange (zeroOf true) one = true ∧
      classOf (zeroOf true) = .zero) ∧
    ((transc2Form (.fyl2xp1 [])).isSome ∧ yl2xp1InRange 0x3FFD8000000000000000#80 four = true ∧
      yl2xp1InRange one four = false ∧ yl2xp1InRange half nan = false) ∧
    Ready (machine 0x03FF [one]) ∧ (machine 0x03FF [one]).npx.isEmpty 1 = true :=
  ⟨⟨rfl, pair_ready, by decide +kernel, by decide +kernel, by decide +kernel, by decide +kernel⟩,
    ⟨rfl, ready_of (by decide +kernel), by decide +kernel, by decide +kernel, by decide +kernel, by decide +kernel⟩,
    ⟨rfl, by decide +kernel, by decide +kernel, by decide +kernel⟩, ready_of (by decide +kernel), by decide +kernel⟩

theorem witness_PartialTangent :
    Ready pair ∧ (pair.npx.isEmpty 0 || !pair.npx.isEmpty 7) = false ∧ Ready full ∧ full.npx.isEmpty 7 = false ∧
    Ready empty ∧ empty.npx.isEmpty 0 = true ∧ pair.npx.isEmpty 0 = false ∧ pair.npx.isEmpty 7 = true ∧
    ptanInRange half = true ∧ ptanInRange (pair.npx.st 0) = false :=
  ⟨pair_ready, by decide +kernel, full_ready, by decide +kernel, empty_ready, by decide +kernel, by decide +kernel,
    by decide +kernel, by decide +kernel, by decide +kernel⟩

theorem witness_ComparisonRegisterForms :
    compareRegForm (.fcomSti [] 1) = some (1, 0) ∧ compareRegForm (.fcompp []) = some (1, 2) ∧ Ready pair ∧
    ((pair.npx.fetch 0).andThen fun a => (pair.npx.fetch 1).andThen fun b => compareValues pair.npx.cw a b).value =
      some .less ∧ Ready (machine 0x03FE []) ∧ ((machine 0x03FE []).npx.fetch 0).value = none :=
  ⟨rfl, rfl, pair_ready, by decide +kernel, ready_of (by decide +kernel), by decide +kernel⟩

theorem witness_ComparisonMemoryForms :
    compareMemForm (.fcompM64r [] (.direct 0xFFF8)) = some (.direct 0xFFF8, .long, 1) ∧ Ready pair ∧
    OperandFits pair (.fcompM64r [] (.direct 0xFFF8)) (.direct 0xFFF8) 4 false ∧ Ready empty ∧
    empty.npx.isEmpty 0 = true ∧ (MemType.short.source [1, 0, 0, 0]).denormal = true :=
  ⟨rfl, pair_ready, by unfold OperandFits; decide +kernel, empty_ready, by decide +kernel, by decide +kernel⟩

theorem witness_ComparisonIsByValue :
    [one, zeroOf true, nought, infinity, nan, tiny, loose].map classOf =
      [.normal, .zero, .pseudoZero, .infinity, .nan, .denormal, .unnormal] := by decide +kernel

theorem witness_ExamineReportsTheClass :
    Ready pair ∧ pair.npx.isEmpty 0 = false ∧ Ready empty ∧ empty.npx.isEmpty 0 = true :=
  ⟨pair_ready, by decide +kernel, empty_ready, by decide +kernel⟩

theorem witness_RegisterTransfers :
    Ready pair ∧ pair.npx.isEmpty 0 = false ∧ pair.npx.isEmpty 1 = false ∧ pair.npx.isEmpty 7 = true ∧ Ready full ∧
    full.npx.isEmpty 7 = false ∧ Ready empty ∧ empty.npx.isEmpty 0 = true ∧ empty.npx.cw.getLsbD 0 = true ∧
    Ready (machine 0x03FE []) ∧ (machine 0x03FE []).npx.cw.getLsbD 0 = false :=
  ⟨pair_ready, by decide +kernel, by decide +kernel, by decide +kernel, full_ready, by decide +kernel, empty_ready,
    by decide +kernel, by decide +kernel, ready_of (by decide +kernel), by decide +kernel⟩

/-- With room and without; a short real that is no denormal and one that is. -/
theorem witness_MemoryLoads :
    (loadForm (.fbldM80d [] (.direct 0xFFF6))).isSome ∧ Ready empty ∧
    OperandFits empty (.fbldM80d [] (.direct 0xFFF6)) (.direct 0xFFF6) 5 false ∧ empty.npx.isEmpty 7 = true ∧
    Ready full ∧ full.npx.isEmpty 7 = false ∧
    realLoadForm (.fldM32r [] (.direct 0)) = some (.direct 0, 2, shortReal) ∧
    OperandFits empty (.fldM32r [] (.direct 0)) (.direct 0) 2 false ∧
    (loadReal shortReal 0x3F800000).denormal = false ∧ (loadReal shortReal 1).denormal = true :=
  ⟨rfl, empty_ready, by unfold OperandFits; decide +kernel, by decide +kernel, full_ready, by decide +kernel, rfl,
    by unfold OperandFits; decide +kernel, by decide +kernel, by decide +kernel⟩

/-- -0, the smallest normal, the largest NaN pattern; the smallest denormal; infinity. -/
theorem witness_RealFormatRoundTrip :
    ([0x80000000, 0x00800000, 0xFFFFFFFF, 0x7F800000].all fun v =>
      decide (v < 2 ^ (8 * shortReal.bytes)) && !(loadReal shortReal v).denormal) = true ∧
    ([0x8000000000000000, 0x0010000000000000, 0xFFFFFFFFFFFFFFFF].all fun v =>
      decide (v < 2 ^ (8 * longReal.bytes)) && !(loadReal longReal v).denormal) = true ∧
    ([0x80000001, 0x807FFFFF].all fun v =>
      decide (v < 2 ^ (8 * shortReal.bytes)) && (loadReal shortReal v).denormal) = true ∧
    (0x80000001 / 2 ^ 23 % 2 ^ 8 = 0 ∧ 0x00800000 / 2 ^ 23 % 2 ^ 8 ≠ 0 ∧ 0x00800000 / 2 ^ 23 % 2 ^ 8 ≠ 2 ^ 8 - 1 ∧
      0x7F800000 / 2 ^ 23 % 2 ^ 8 = 2 ^ 8 - 1) := by decide +kernel

theorem witness_IntegerRoundTrip : 0xFFFF < 2 ^ 16 ∧ 0x80000000 < 2 ^ 32 ∧ 0xFFFFFFFFFFFFFFFF < 2 ^ 64 := by decide

/-- Negative zero and -999,999,999,999,999,999. -/
theorem witness_DecimalRoundTrip :
    ([0x80000000000000000000, 0x80999999999999999999].all fun v =>
      decide (v < 2 ^ 80) && digitsValid 18 v && v / 2 ^ 72 % 128 == 0) = true := by decide +kernel

theorem witness_MemoryStores :
    (storeForm (.fstpM80r [] (.direct 0xFFF6))).isSome ∧ Ready pair ∧
    OperandFits pair (.fstpM80r [] (.direct 0xFFF6)) (.direct 0xFFF6) 5 true ∧ pair.mem.wf = true ∧
    (storeForm (.fistM16i [] (.direct 0))).isSome ∧ Ready (machine 0x03FE []) ∧
    OperandFits (machine 0x03FE []) (.fistM16i [] (.direct 0)) (.direct 0) 1 true ∧
    ((machine 0x03FE []).npx.fetch 0).value = none :=
  ⟨rfl, pair_ready, by unfold OperandFits; decide +kernel, by decide +kernel, rfl, ready_of (by decide +kernel),
    by unfold OperandFits; decide +kernel, by decide +kernel⟩

/-- A short real in range, one at 2^128 and one below 2^-126; an unnormal with the smallest and the largest exponent
field of each format, and below and above; integers in and out of range; 10^18 - 1 and 10^18; the special values. -/
theorem witness_StoresOutOfRange :
    (classOf one = .normal ∧ classOf 0x407F8000000000000000#80 = .normal ∧ classOf 0x3F808000000000000000#80 = .normal ∧
      1 - (shortReal.bias : Int) ≤ (expField one : Int) - 16383 ∧
      (2 : ℚ) ^ ((shortReal.bias : Int) + 1) ≤ magVal (magOf 0x407F8000000000000000#80) ∧
      (expField 0x3F808000000000000000#80 : Int) - 16383 < 1 - (shortReal.bias : Int) ∧
      masked 0x03FF flagU = true ∧ masked 0x03EF flagU = false) ∧
    (classOf (packReal false 16257 1) = .unnormal ∧ expField (packReal false 16257 1) = 16257 ∧
      classOf (packReal true 16510 1) = .unnormal ∧ expField (packReal true 16510 1) = 16510 ∧
      ([15361, 17406, 15360, 17407, 16256, 16511].all fun e => decide (classOf (packReal true e 1) = .unnormal) &&
        decide (classOf (packReal false e 0) = .pseudoZero) && decide (expField (packReal true e 1) = e)) = true) ∧
    (classOf tiny = .denormal ∧ classOf (zeroOf true) = .zero ∧ classOf nought = .pseudoZero) ∧
    (classOf (ofInt 32768) = .normal ∧ classOf (ofInt (-32768)) = .normal ∧ classOf infinity = .infinity ∧
      classOf nan = .nan) ∧
    ⌊magVal (magOf (ofInt 999999999999999999)) + 1 / 2⌋.toNat < 10 ^ 18 ∧
    ¬ ⌊magVal (magOf (ofInt 1000000000000000000)) + 1 / 2⌋.toNat < 10 ^ 18 := by decide +kernel

/-- On a ready machine; and with ERROR active; and with the NEU stuck. -/
theorem witness_ControlWordTransfers :
    Ready empty ∧ OperandFits empty (.fldcwM2 [] (.direct 0xFFFE)) (.direct 0xFFFE) 1 false ∧ Passed failing ∧
    OperandFits failing (.fnstcwM2 [] (.direct 0xFFFE)) (.direct 0xFFFE) 1 true ∧ failing.mem.wf = true ∧
    failing.npx.busy = false ∧ Passed stuck ∧
    OperandFits stuck (.fnstswM2 [] (.direct 0)) (.direct 0) 1 true ∧ stuck.npx.busy = true :=
  ⟨empty_ready, by unfold OperandFits; decide +kernel, passed_of (by decide +kernel),
    by unfold OperandFits; decide +kernel, by decide +kernel, by decide +kernel, passed_of (by decide +kernel),
    by unfold OperandFits; decide +kernel, by decide +kernel⟩

theorem witness_ControlWithoutOperand : Ready empty ∧ Passed failing ∧ Passed stuck ∧ failing.error = true :=
  ⟨empty_ready, passed_of (by decide +kernel), passed_of (by decide +kernel), by decide +kernel⟩

/-- With ERROR active, at the last offset that fits. -/
theorem witness_ImageStores :
    Passed failing ∧ failing.npx.busy = false ∧
    OperandFits failing (.fnstenvM14 [] (.direct 0xFFF2)) (.direct 0xFFF2) 7 true ∧
    OperandFits failing (.fnsaveM94 [] (.direct 0xFFA2)) (.direct 0xFFA2) 47 true ∧ failing.mem.wf = true :=
  ⟨passed_of (by decide +kernel), by decide +kernel, by unfold OperandFits; decide +kernel,
    by unfold OperandFits; decide +kernel, by decide +kernel⟩

theorem witness_ImageLoads :
    Ready empty ∧ OperandFits empty (.fldenvM14 [] (.direct 0xFFF2)) (.direct 0xFFF2) 7 false ∧
    OperandFits empty (.frstorM94 [] (.direct 0xFFA2)) (.direct 0xFFA2) 47 false :=
  ⟨empty_ready, by unfold OperandFits; decide +kernel, by unfold OperandFits; decide +kernel⟩

/-- Two NPXs that agree in PM alone, in both modes. -/
theorem witness_StateImageRoundTrip :
    pair.npx.pm = full.npx.pm ∧ pair.npx.pm = false ∧ pair.npx ≠ full.npx ∧
    { pair.npx with pm := true }.pm = { full.npx with pm := true }.pm ∧ { pair.npx with pm := true }.pm = true := by
  decide +kernel

theorem witness_StackHousekeeping : Ready empty ∧ empty.npx.isEmpty 0 = true := ⟨empty_ready, by decide +kernel⟩

theorem witness_StackRegisterNumbering :
    Ready (machine 0x03FF [one]) ∧ (machine 0x03FF [one]).npx.top = 7 ∧ Ready empty ∧ empty.npx.top = 0 :=
  ⟨ready_of (by decide +kernel), by decide +kernel, empty_ready, by decide +kernel⟩

end Sys2Proof.Tests
end

section
/-! PROOFS. The decoder reads back what the encoder writes, and a step runs what the decoder reads. -/

namespace Sys2Proof

/-! ## The fields of a ModRM byte, the bytes of a word, the codes of segments and base registers -/

@[simp] theorem modField_modRM (mod : BitVec 2) (ext rm : BitVec 3) : modField (modRM mod ext rm) = mod := by
  unfold modField modRM
  rw [BitVec.extractLsb'_append_eq_of_le (by decide)]
  exact BitVec.extractLsb'_append_eq_left

@[simp] theorem extField_modRM (mod : BitVec 2) (ext rm : BitVec 3) : extField (modRM mod ext rm) = ext := by
  unfold extField modRM
  rw [BitVec.extractLsb'_append_eq_of_le (by decide)]
  exact BitVec.extractLsb'_append_eq_right

@[simp] theorem rmField_modRM (mod : BitVec 2) (ext rm : BitVec 3) : rmField (modRM mod ext rm) = rm :=
  BitVec.extractLsb'_append_eq_right

@[simp] theorem wordOf_lowByte_highByte (w : Word) : wordOf (lowByte w) (highByte w) = w :=
  BitVec.extractLsb'_append_extractLsb' (w := 8) (len := 8)

@[simp] theorem Seg.ofByte_code (g : Seg) : Seg.ofByte g.code = some g := by cases g <;> rfl

@[simp] theorem Base.ofCode_code (b : Base) : Base.ofCode b.code = b := by cases b <;> rfl

/-- Only the base register BP alone has the R/M code that MOD = 00B gives to the direct form (spec 30 R139). -/
theorem Base.code_eq_six_iff (b : Base) : b.code = 6 ↔ b = .bp := by cases b <;> decide

/-! ## Memory operands -/

/-- Base registers with no displacement, but for BP alone, are read back from MOD = 00B. -/
theorem decodeMemArg_base {b : Base} (hb : b ≠ .bp) (rest : List Byte) :
    decodeMemArg 0 b.code rest = .ok (.base b, rest) := by
  have hcode : b.code ≠ 6 := mt b.code_eq_six_iff.mp hb
  calc decodeMemArg 0 b.code rest
    _ = .ok (.base (Base.ofCode b.code), rest) := if_neg hcode
    _ = .ok (.base b, rest) := by rw [Base.ofCode_code]

/-- An operand with an encoding is written as a ModRM byte of a memory form and a displacement, and read back. -/
theorem encodeMemArg_decodes {m : MemArg} (hm : m.WellFormed = true) (ext : BitVec 3) (rest : List Byte) :
    ∃ mod rm disp, encodeMemArg ext m = modRM mod ext rm :: disp ∧ mod ≠ 3 ∧
      decodeMemArg mod rm (disp ++ rest) = .ok (m, rest) := by
  cases m with
  | direct a => exact ⟨0, 6, _, rfl, by decide, by simp [decodeMemArg]⟩
  | base b => exact ⟨0, b.code, [], rfl, by decide, decodeMemArg_base (by rintro rfl; cases hm) rest⟩
  | base8 b d => exact ⟨1, b.code, _, rfl, by decide, by simp [decodeMemArg]⟩
  | base16 b d => exact ⟨2, b.code, _, rfl, by decide, by simp [decodeMemArg]⟩

/-! ## The body of an instruction -/

/-- A first byte D8H to DFH is an ESC (spec 30 R133). -/
theorem decodeBody_esc {b1 b2 : Byte} (p : List Seg) (rest : List Byte) (h : 0xD8 ≤ b1.toNat ∧ b1.toNat ≤ 0xDF) :
    decodeBody p (b1 :: b2 :: rest) = decodeEsc b1 b2 p rest := by
  have hw : b1 ≠ 0x9B := by rintro rfl; revert h; decide
  rw [decodeBody, if_neg hw, if_pos h]

theorem decodeBody_mem_form {b1 : Byte} {ext : BitVec 3} {p : List Seg} {m : MemArg} {i : Instr} {rest : List Byte}
    (hb : 0xD8 ≤ b1.toNat ∧ b1.toNat ≤ 0xDF) (hm : m.WellFormed = true)
    (hi : decodeMem b1.toNat ext.toNat p m = some i) :
    decodeBody p (b1 :: encodeMemArg ext m ++ rest) = .ok (i, rest) := by
  obtain ⟨mod, rm, disp, henc, hmod, hdec⟩ := encodeMemArg_decodes hm ext rest
  rw [henc, List.cons_append, List.cons_append, decodeBody_esc p _ hb]
  simp only [decodeEsc, modField_modRM, extField_modRM, rmField_modRM, if_neg hmod, hdec, hi, orUnassigned]

theorem decodeBody_reg_form {b1 : Byte} {ext : BitVec 3} {p : List Seg} {r : RegNum} {i : Instr} {rest : List Byte}
    (hb : 0xD8 ≤ b1.toNat ∧ b1.toNat ≤ 0xDF) (hi : decodeReg b1.toNat ext.toNat r p = some i) :
    decodeBody p ([b1, modRM 3 ext r] ++ rest) = .ok (i, rest) := by
  rw [List.cons_append, List.cons_append, decodeBody_esc p _ hb]
  simp [decodeEsc, hi, orUnassigned]

/-- The decoder's tables and the encoder's agree row by row (spec 30 R134 to R145, R151). -/
theorem decodeBody_encodeBody (i : Instr) (rest : List Byte) (h : ∀ m, i.operand = some m → m.WellFormed = true) :
    decodeBody i.overrides (encodeBody i ++ rest) = .ok (i, rest) := by
  cases i with
  | faddM32r p m | fmulM32r p m | fcomM32r p m | fcompM32r p m | fsubM32r p m | fsubrM32r p m | fdivM32r p m
  | fdivrM32r p m | fldM32r p m | fstM32r p m | fstpM32r p m | fldenvM14 p m | fldcwM2 p m | fnstenvM14 p m
  | fnstcwM2 p m | fiaddM32i p m | fimulM32i p m | ficomM32i p m | ficompM32i p m | fisubM32i p m | fisubrM32i p m
  | fidivM32i p m | fidivrM32i p m | fildM32i p m | fistM32i p m | fistpM32i p m | fldM80r p m | fstpM80r p m
  | faddM64r p m | fmulM64r p m | fcomM64r p m | fcompM64r p m | fsubM64r p m | fsubrM64r p m | fdivM64r p m
  | fdivrM64r p m | fldM64r p m | fstM64r p m | fstpM64r p m | frstorM94 p m | fnsaveM94 p m | fnstswM2 p m
  | fiaddM16i p m | fimulM16i p m | ficomM16i p m | ficompM16i p m | fisubM16i p m | fisubrM16i p m | fidivM16i p m
  | fidivrM16i p m | fildM16i p m | fistM16i p m | fistpM16i p m | fbldM80d p m | fildM64i p m | fbstpM80d p m
  | fistpM64i p m =>
    exact decodeBody_mem_form (by decide) (h m rfl) rfl
  | faddStSti p r | fmulStSti p r | fcomSti p r | fcompSti p r | fsubStSti p r | fsubrStSti p r | fdivStSti p r
  | fdivrStSti p r | fldSti p r | fxchSti p r | faddStiSt p r | fmulStiSt p r | fsubrStiSt p r | fsubStiSt p r
  | fdivrStiSt p r | fdivStiSt p r | ffreeSti p r | fstSti p r | fstpSti p r | faddpStiSt p r | fmulpStiSt p r
  | fsubrpStiSt p r | fsubpStiSt p r | fdivrpStiSt p r | fdivpStiSt p r =>
    exact decodeBody_reg_form (by decide) rfl
  | fnop p | fchs p | fabs p | ftst p | fxam p | fld1 p | fldl2t p | fldl2e p | fldpi p | fldlg2 p | fldln2 p
  | fldz p | f2xm1 p | fyl2x p | fptan p | fpatan p | fxtract p | fdecstp p | fincstp p | fprem p | fyl2xp1 p
  | fsqrt p | frndint p | fscale p | fneni p | fndisi p | fnclex p | fninit p | fsetpm p | fcompp p | fnstswAx p
  | fwait p =>
    rfl

/-! ## Overrides and the whole instruction -/

/-- Override bytes are taken off the front one by one, up to bytes that begin with none. -/
theorem takeOverrides_map_code_append (p : List Seg) {bytes : List Byte} (h : takeOverrides bytes = ([], bytes)) :
    takeOverrides (p.map Seg.code ++ bytes) = (p, bytes) := by
  induction p with
  | nil => exact h
  | cons g p ih => simp [takeOverrides, ih]

/-- An override byte begins no body: it is not 9BH, and not D8H to DFH. -/
theorem decodeBody_override (p : List Seg) (g : Seg) (rest : List Byte) :
    decodeBody p (g.code :: rest) = .error .cpuInstruction := by cases g <;> rfl

theorem Seg.ofByte_eq_some_iff {b : Byte} {g : Seg} : Seg.ofByte b = some g ↔ b = g.code := by
  constructor
  · intro h
    unfold Seg.ofByte at h
    split at h <;> cases h <;> exact BitVec.eq_of_toNat_eq ‹_›
  · rintro rfl
    exact Seg.ofByte_code g

/-- Bytes that a body is read from begin with no override byte. -/
theorem takeOverrides_of_decodeBody {p : List Seg} {bytes : List Byte} {r : Instr × List Byte}
    (h : decodeBody p bytes = .ok r) : takeOverrides bytes = ([], bytes) := by
  cases bytes with
  | nil => rfl
  | cons b rest =>
    cases hg : Seg.ofByte b with
    | none => simp [takeOverrides, hg]
    | some g =>
      rw [Seg.ofByte_eq_some_iff.mp hg, decodeBody_override] at h
      cases h

theorem Instr.operand_wellFormed {i : Instr} (h : i.WellFormed = true) {m : MemArg} (hm : i.operand = some m) :
    m.WellFormed = true := by
  simp only [Instr.WellFormed, hm, Bool.and_eq_true] at h
  exact h.1

/-- Decoding reads back a well-formed instruction from its encoding, whatever bytes follow (spec 30 R157). -/
theorem decode_encode_append {i : Instr} (h : i.WellFormed = true) (rest : List Byte) :
    decode (encode i ++ rest) = .ok (i, rest) := by
  have hbody := decodeBody_encodeBody i rest fun _ hm => Instr.operand_wellFormed h hm
  have hfront := takeOverrides_map_code_append i.overrides (takeOverrides_of_decodeBody hbody)
  simp only [decode, encode, List.append_assoc, hfront, hbody]

end Sys2Proof

namespace Sys2Proof.Machine

/-! ## Starting an ESC that does not reach the NPX: each test of `startEsc`, in its order -/

section
variable {checks : Bool} {absent run : State → Outcome} {s : State}

theorem startEsc_mpAndEmSet (hmp : s.cpu.mp = true) (hem : s.cpu.em = true) :
    startEsc checks absent run s = .refused .mpAndEmSet := by simp [startEsc, hmp, hem]

theorem startEsc_notAvailable (hno : (s.cpu.mp && s.cpu.em) = false) (h : s.cpu.em = true ∨ s.cpu.ts = true) :
    startEsc checks absent run s = .next (takeInterrupt .notAvailable s) := by
  have h' : (s.cpu.em || s.cpu.ts) = true := by simpa using h
  simp only [startEsc, hno, h', Bool.false_eq_true, if_false, if_true]

theorem startEsc_absent (hem : s.cpu.em = false) (hts : s.cpu.ts = false) (hp : s.platform.npxPresent = false) :
    startEsc checks absent run s = absent s := by simp [startEsc, hem, hts, hp]

theorem startEsc_escBeforeWait (hem : s.cpu.em = false) (hts : s.cpu.ts = false) (hp : s.platform.npxPresent = true)
    (hi : s.npx.imagePending = true) : startEsc checks absent run s = .refused .escBeforeWait := by
  simp [startEsc, hem, hts, hp, hi]

/-- A code no NPX runs is refused under its own name only where no image is waited for (spec 70 R441). -/
theorem startEsc_unrunnable {r : Refusal} (hem : s.cpu.em = false) (hts : s.cpu.ts = false)
    (hp : s.platform.npxPresent = true) :
    startEsc false absent (fun _ => .refused r) s = .refused (if s.npx.imagePending then .escBeforeWait else r) := by
  cases hi : s.npx.imagePending with
  | true => exact startEsc_escBeforeWait hem hts hp hi
  | false => exact startEsc_passed ⟨hp, hem, hts, hi⟩

end

/-! ## A step by what the bytes at CS:IP decode to -/

theorem step_of_decode_ok {s : State} {r : Instr × List Byte} (h : decode s.fetchWindow = .ok r) :
    step s = exec r.1 s := by
  unfold step
  rw [h]

theorem step_of_decode_error {s : State} {e : DecodeError} (h : decode s.fetchWindow = .error e) :
    step s = undecoded e s := by
  unfold step
  rw [h]

/-- IP past the ESC code at CS:IP. -/
def State.pastEscCode (s : State) : State :=
  { s with cpu := { s.cpu with ip := s.cpu.ip + BitVec.ofNat 16 (escLength s.fetchWindow) } }

/-- An unassigned ESC code starts as a no-wait ESC does, and is refused where it reaches the NPX. -/
theorem undecoded_unassignedEsc (s : State) :
    undecoded .unassignedEsc s = startEsc false (fun s => .next s.pastEscCode) (fun _ => .refused .unassignedEsc) s :=
  rfl

theorem undecoded_of_ne {e : DecodeError} (s : State) (h : e ≠ .unassignedEsc) :
    undecoded e s = .refused (refusalOf e) := if_neg h

/-- Settles O5, from the round trip of the encoding and the tests of `startEsc` in their order. -/
theorem stepRunsTheDecodedInstruction : Obligations.StepRunsTheDecodedInstruction := by
  unfold Obligations.StepRunsTheDecodedInstruction
  refine ⟨fun s i rest h => step_of_decode_ok h, fun s i rest hwf hbytes => ?_, fun s e h he => ?_, fun s h => ?_⟩
  · exact step_of_decode_ok (hbytes ▸ decode_encode_append hwf rest)
  · rw [step_of_decode_error h, undecoded_of_ne s he]
  · rw [step_of_decode_error h, undecoded_unassignedEsc]
    exact ⟨startEsc_mpAndEmSet, startEsc_notAvailable, startEsc_absent, startEsc_unrunnable⟩

end Sys2Proof.Machine
end

section
/-! PROOFS. The words and registers of the NPX: the fields of the status word, tags, the reset state, the numbering of
the stack registers. -/

namespace Sys2Proof.Machine

open Sys2Proof.Safety

/-! ## The fields of a status word (spec 10 R24) -/

section
variable (b es : Bool) (cc : BitVec 4) (top : RegNum) (flags : Flags)

theorem statusOf_b : (statusOf b es cc top flags).getLsbD 15 = b := by
  unfold statusOf
  repeat rw [BitVec.getLsbD_append]
  simp

theorem statusOf_c3 : (statusOf b es cc top flags).getLsbD 14 = cc.getLsbD 3 := by
  unfold statusOf
  repeat rw [BitVec.getLsbD_append]
  simp

theorem statusOf_es : (statusOf b es cc top flags).getLsbD 7 = es := by
  unfold statusOf
  repeat rw [BitVec.getLsbD_append]
  simp

theorem statusOf_bit6 : (statusOf b es cc top flags).getLsbD 6 = false := by
  unfold statusOf
  repeat rw [BitVec.getLsbD_append]
  simp

theorem statusOf_top : (statusOf b es cc top flags).extractLsb' 11 3 = top := by
  unfold statusOf
  rw [BitVec.extractLsb'_append_eq_of_le (by decide), BitVec.extractLsb'_append_eq_of_le (by decide),
    BitVec.extractLsb'_append_eq_of_le (by decide), BitVec.extractLsb'_append_eq_of_le (by decide)]
  exact BitVec.extractLsb'_append_eq_right

theorem statusOf_c2c1c0 : (statusOf b es cc top flags).extractLsb' 8 3 = cc.extractLsb' 0 3 := by
  unfold statusOf
  rw [BitVec.extractLsb'_append_eq_of_le (by decide), BitVec.extractLsb'_append_eq_of_le (by decide),
    BitVec.extractLsb'_append_eq_of_le (by decide)]
  exact BitVec.extractLsb'_append_eq_right

theorem statusOf_flags : (statusOf b es cc top flags).extractLsb' 0 6 = flags :=
  BitVec.extractLsb'_append_eq_right

end

/-- Some flag is set whose mask, the control word bit of the same number, is 0 (spec 10 R29, R33). -/
theorem unmaskedFlag_iff (flags : Flags) (cw : Word) :
    unmaskedFlag flags cw = true ↔ ∃ k < 6, flags.getLsbD k = true ∧ cw.getLsbD k = false := by
  have hbit : ∀ k < 6, (flags &&& ~~~(masksOf cw)).getLsbD k = (flags.getLsbD k && !cw.getLsbD k) := by
    intro k hk
    simp [masksOf, hk]
  rw [unmaskedFlag, bne_iff_ne]
  constructor
  · intro hne
    by_contra hno
    refine hne (BitVec.eq_of_getLsbD_eq fun k hk => ?_)
    rw [hbit k hk, show (0 : Flags).getLsbD k = false from BitVec.getLsbD_zero]
    by_contra hk1
    exact hno ⟨k, hk, by simpa using hk1⟩
  · rintro ⟨k, hk, hf, hm⟩ hz
    have := hbit k hk
    simp [hz, hf, hm] at this

/-- Settles O18, from the fields of a word put together by `statusOf`. -/
theorem statusWordLayout : Obligations.StatusWordLayout := by
  intro pl n w
  have hes : w.getLsbD 7 = errorActive pl n := statusOf_es ..
  refine ⟨?_, statusOf_c3 .., statusOf_top .., statusOf_c2c1c0 .., statusOf_bit6 .., statusOf_flags ..,
    fun hi => ?_, fun hi => ?_⟩
  · rw [hes]
    exact statusOf_b ..
  · rw [hes, ← unmaskedFlag_iff]
    simp [errorActive, hi]
  · rw [hes, ← unmaskedFlag_iff]
    simp [errorActive, hi, and_comm]

/-! ## Tags, reset, and the numbering of the stack registers -/

/-- Settles O19: the tag merges the classes of a temporary real (spec 11 R67). -/
theorem tagOfAValue : Obligations.TagOfAValue := by
  intro r
  refine ⟨?_, rfl, rfl, rfl⟩
  by_cases he : expField r = 0
  · by_cases hs : sigOf r = 0 <;> simp [tagOf, classOf, he, hs]
  by_cases hm : expField r = 0x7FFF
  · by_cases hs : sigOf r = 0x8000000000000000 <;> simp [tagOf, classOf, hm, hs]
  rw [if_neg he, if_neg hm]
  by_cases hz : sigOf r = 0
  · simp [tagOf, classOf, he, hm, hz]
  · by_cases hs : sigOf r < 0x8000000000000000 <;> simp [tagOf, classOf, he, hm, hz, hs]

/-- Settles O20, by evaluating the fields of the reset state. -/
theorem resetState : Obligations.ResetState := by
  unfold Obligations.ResetState
  decide

theorem Npx.toNat_phys (n : Npx) (i : RegNum) : (n.phys i).toNat = (n.top.toNat + i.toNat) % 8 :=
  BitVec.toNat_add ..

@[simp] theorem Npx.phys_zero (n : Npx) : n.phys 0 = n.top := BitVec.add_zero _

theorem execFincstp_ready (p : List Seg) {s : State} (h : Ready s) :
    ∃ t, exec (.fincstp p) s = .next t ∧ t.npx.top = s.npx.top + 1 :=
  ⟨_, neuRegister_ready (pc := false) (i := .fincstp p) (f := fun n => { n with top := n.top + 1 }) h nofun,
    rfl⟩

theorem execFdecstp_ready (p : List Seg) {s : State} (h : Ready s) :
    ∃ t, exec (.fdecstp p) s = .next t ∧ t.npx.top = s.npx.top - 1 :=
  ⟨_, neuRegister_ready (pc := false) (i := .fdecstp p) (f := fun n => { n with top := n.top - 1 }) h nofun,
    rfl⟩

/-- Settles O60: addition on three bits is addition modulo 8. -/
theorem stackRegisterNumbering : Obligations.StackRegisterNumbering := by
  intro n i
  refine ⟨n.toNat_phys i, rfl, congrArg n.reg n.phys_zero, fun p s hs => ⟨fun htop => ?_, fun htop => ?_⟩⟩
  · obtain ⟨t, hexec, ht⟩ := execFincstp_ready p hs
    exact ⟨t, hexec, by rw [ht, htop]; rfl⟩
  · obtain ⟨t, hexec, ht⟩ := execFdecstp_ready p hs
    exact ⟨t, hexec, by rw [ht, htop]; rfl⟩

end Sys2Proof.Machine
end

section
/-! PROOFS. What no instruction changes: one inversion lemma for each shape of instruction, the frame of the 80286, and
what numeric instructions keep of the NPX. -/

namespace Sys2Proof.Machine

open Sys2Proof.Config (BinOp)

/-! ## What an instruction may change of the 80286 (spec 10 R51 to R54) -/

/-- Of the 80286 only IP, SP, FLAGS and CS may differ, and the platform does not. -/
structure HostKept (s t : State) : Prop where
  platform : t.platform = s.platform
  cpu : t.cpu = { s.cpu with ip := t.cpu.ip, sp := t.cpu.sp, flags := t.cpu.flags, cs := t.cpu.cs }

theorem HostKept.refl (s : State) : HostKept s s := ⟨rfl, rfl⟩

theorem takeInterruptFrom_hostKept (v : IntVector) (a b : Word) (s : State) :
    HostKept s (takeInterruptFrom v a b s) := by
  refine ⟨takeInterruptFrom_platform .., ?_⟩
  unfold takeInterruptFrom
  dsimp only
  split
  · split <;> rfl
  · rfl

theorem takeInterrupt_hostKept (v : IntVector) (s : State) : HostKept s (takeInterrupt v s) :=
  takeInterruptFrom_hostKept ..

theorem State.advance_hostKept (s : State) (i : Instr) : HostKept s (s.advance i) := ⟨rfl, rfl⟩

theorem State.finish_hostKept (s : State) (i : Instr) (n : Npx) : HostKept s (s.finish i n) := ⟨rfl, rfl⟩

theorem takeOverrun_hostKept (s : State) (n : Npx) : HostKept s (takeOverrun s n) :=
  have h : HostKept { s with npx := n }.drawn (takeOverrun s n) := takeInterruptFrom_hostKept ..
  ⟨h.platform, h.cpu⟩

@[simp] theorem takeOverrun_npx (s : State) (n : Npx) : (takeOverrun s n).npx = n := takeInterruptFrom_npx ..

/-- A store to memory is no change of the 80286. -/
theorem HostKept.of_storeOperand {s t : State} {i : Instr} {m : MemArg} {b : List Byte}
    (h : HostKept (s.storeOperand i m b) t) : HostKept s t := ⟨h.platform, h.cpu⟩

/-! ## The steps in which an instruction does not run -/

/-- An instruction that does not run waits, is trapped, or passes without effect. -/
inductive NotRun (i : Instr) (s : State) : State → Prop
  | waits : NotRun i s s
  | trapped (v : IntVector) : NotRun i s (takeInterrupt v s)
  | skipped : NotRun i s (s.advance i)

theorem NotRun.hostKept {i : Instr} {s t : State} (h : NotRun i s t) : HostKept s t := by
  cases h with
  | waits => exact .refl s
  | trapped v => exact takeInterrupt_hostKept v s
  | skipped => exact s.advance_hostKept i

theorem NotRun.npx {i : Instr} {s t : State} (h : NotRun i s t) : t.npx = s.npx := by
  cases h with
  | waits => rfl
  | trapped v => exact takeInterrupt_npx v s
  | skipped => rfl

section
variable {checks write pc : Bool} {i : Instr} {m : MemArg} {words pops : Nat} {absent run : State → Outcome}
  {s t : State}

/-- An ESC does not run, or finds no NPX, or runs. -/
theorem startEsc_notRun_or (i : Instr) (h : startEsc checks absent run s = .next t) :
    NotRun i s t ∨ absent s = .next t ∨ run s = .next t := by
  rcases startEsc_next h with rfl | ⟨_, h⟩ | ⟨_, _, rfl⟩ | ⟨_, _, rfl⟩ | ⟨_, _, _, h⟩
  · exact .inl (.trapped _)
  · exact .inr (.inl h)
  · exact .inl .waits
  · exact .inl (.trapped _)
  · exact .inr (.inr h)

theorem skipEsc_next (h : skipEsc i s = .next t) : NotRun i s t := by
  cases h
  exact .skipped

/-- A memory operand is refused by interrupt 13, or the instruction goes on (spec 60 R394). -/
theorem checkOperand_next {run : Nat → State → Outcome} (h : checkOperand i m words write run s = .next t) :
    NotRun i s t ∨ ∃ inside, run inside s = .next t := by
  unfold checkOperand at h
  dsimp only at h
  split at h
  · cases h
    exact .inl (.trapped _)
  · exact .inr ⟨_, h⟩

/-- With no NPX a memory operand is checked all the same, and nothing else is done. -/
theorem checkOperand_skipEsc_next (h : checkOperand i m words write (fun _ => skipEsc i) s = .next t) :
    NotRun i s t := by
  rcases checkOperand_next h with h | ⟨_, h⟩
  · exact h
  · exact skipEsc_next h

theorem usingPrecision_next (h : usingPrecision pc run s = .next t) : run s = .next t := by
  unfold usingPrecision at h
  split at h
  · cases h
  · exact h

/-! ## What each shape of instruction can answer -/

theorem neuRegister_next {f : Npx → Npx} (h : neuRegister pc i f s = .next t) :
    NotRun i s t ∨ t = s.finish i (f (s.latched i)) := by
  rcases startEsc_notRun_or i h with h | h | h
  · exact .inl h
  · exact .inl (skipEsc_next h)
  · cases usingPrecision_next h
    exact .inr rfl

theorem neuLoad_next {dest : Option RegNum} {f : List Byte → Npx → Npx} (h : neuLoad pc i m words dest f s = .next t) :
    NotRun i s t ∨ t = s.finish i (f (s.operandBytes i m (2 * words)) (s.latchedMem i m)) ∨
    ∃ left new, t = takeOverrun s
      (((s.latchedMem i m).loadUndefined s.draws dest).afterOverrun s i m left new.flags 0 new) := by
  rcases startEsc_notRun_or i h with h | h | h
  · exact .inl h
  · exact .inl (checkOperand_skipEsc_next h)
  rcases checkOperand_next (usingPrecision_next h) with h | ⟨inside, h⟩
  · exact .inl h
  split at h
  · cases h
    exact .inr (.inr ⟨_, _, rfl⟩)
  · cases h
    exact .inr (.inl rfl)

/-- A store that an unmasked exception ends pops nothing; one past the segment's end may pop (log 14). -/
theorem neuStore_next {value : Npx → Out Nat} (h : neuStore i m words pops value s = .next t) :
    NotRun i s t ∨ ∃ k flags, HostKept s t ∧
      (t.npx = ((s.latchedMem i m).raise flags).pops k ∨
        ∃ left new, t.npx = (((s.latchedMem i m).raise flags).pops k).afterOverrun s i m left flags 0 new) := by
  rcases startEsc_notRun_or i h with h | h | h
  · exact .inl h
  · exact .inl (checkOperand_skipEsc_next h)
  rcases checkOperand_next h with h | ⟨inside, h⟩
  · exact .inl h
  refine .inr ?_
  unfold commitStore at h
  dsimp only at h
  split at h
  · cases h
    exact ⟨0, _, s.finish_hostKept .., .inl rfl⟩
  split at h
  · cases h
    cases Config.overrunCompletes s.draws with
    | true => exact ⟨pops, _, (takeOverrun_hostKept ..).of_storeOperand, .inr ⟨_, _, takeOverrun_npx ..⟩⟩
    | false => exact ⟨0, _, (takeOverrun_hostKept ..).of_storeOperand, .inr ⟨_, _, takeOverrun_npx ..⟩⟩
  · cases h
    exact ⟨pops, _, (State.finish_hostKept ..).of_storeOperand, .inl rfl⟩

theorem controlRegister_next {f : Npx → Npx} (h : controlRegister checks i f s = .next t) :
    NotRun i s t ∨ t = s.finish i (f s.npx) := by
  rcases startEsc_notRun_or i h with h | h | h
  · exact .inl h
  · exact .inl (skipEsc_next h)
  · cases h
    exact .inr rfl

theorem storeControl_next {value : State → Word} (h : storeControl i m value s = .next t) :
    NotRun i s t ∨ ∃ b, t = (s.storeOperand i m b).advance i ∨ t = (s.storeOperand i m b).finish i s.npx := by
  rcases startEsc_notRun_or i h with h | h | h
  · exact .inl h
  · rcases checkOperand_next h with h | ⟨_, h⟩
    · exact .inl h
    · cases h
      exact .inr ⟨_, .inl rfl⟩
  · rcases checkOperand_next h with h | ⟨_, h⟩
    · exact .inl h
    · cases h
      exact .inr ⟨_, .inr rfl⟩

theorem loadControl_next {f : Npx → List Byte → Npx} (h : loadControl i m words f s = .next t) :
    NotRun i s t ∨ ∃ b, t = s.finish i (f s.npx b) ∨
      ∃ left sets clears new, t = takeOverrun s ((f s.npx b).afterOverrun s i m left sets clears new) := by
  rcases startEsc_notRun_or i h with h | h | h
  · exact .inl h
  · exact .inl (checkOperand_skipEsc_next h)
  rcases checkOperand_next h with h | ⟨inside, h⟩
  · exact .inl h
  split at h
  · cases h
    exact .inr ⟨_, .inr ⟨_, _, _, _, rfl⟩⟩
  · cases h
    exact .inr ⟨_, .inl rfl⟩

/-- A busy NEU holds an image back; else the effect took place, or, past the segment's end, perhaps (log 14, log 19). -/
theorem storeImage_next {image : State → List Byte} {after : Npx → Npx}
    (h : storeImage i m words image after s = .next t) :
    NotRun i s t ∨ HostKept s t ∧ ∃ n, (n = s.npx ∨ n = after s.npx) ∧
      (t.npx = { n with imagePending := true } ∨
        ∃ left sets clears new, t.npx = n.afterOverrun s i m left sets clears new) := by
  rcases startEsc_notRun_or i h with h | h | h
  · exact .inl h
  · exact .inl (checkOperand_skipEsc_next h)
  rcases checkOperand_next h with h | ⟨inside, h⟩
  · exact .inl h
  refine .inr ?_
  split at h
  · cases h
    exact ⟨s.finish_hostKept .., _, .inl rfl, .inl rfl⟩
  split at h
  · cases h
    refine ⟨(takeOverrun_hostKept ..).of_storeOperand, _, ?_, .inr ⟨_, _, _, _, takeOverrun_npx ..⟩⟩
    split
    · exact .inr rfl
    · exact .inl rfl
  · cases h
    exact ⟨(State.finish_hostKept ..).of_storeOperand, _, .inr rfl, .inl rfl⟩

end

/-! ## What numeric instructions keep of the NPX -/

/-- Control word, PM and pending image are kept, and flags are sticky (spec 10 R28, R38, 60 R368). -/
structure NumericChange (n n' : Npx) : Prop where
  cw : n'.cw = n.cw
  pm : n'.pm = n.pm
  imagePending : n'.imagePending = n.imagePending
  sticky : n.flags &&& n'.flags = n.flags

section
variable {n n₁ n₂ : Npx}

theorem NumericChange.of_flags_eq (hcw : n₁.cw = n.cw) (hpm : n₁.pm = n.pm)
    (himage : n₁.imagePending = n.imagePending) (hflags : n₁.flags = n.flags) : NumericChange n n₁ :=
  ⟨hcw, hpm, himage, by rw [hflags, BitVec.and_self]⟩

theorem NumericChange.refl (n : Npx) : NumericChange n n := .of_flags_eq rfl rfl rfl rfl

theorem NumericChange.trans (h₁ : NumericChange n n₁) (h₂ : NumericChange n₁ n₂) : NumericChange n n₂ where
  cw := h₂.cw.trans h₁.cw
  pm := h₂.pm.trans h₁.pm
  imagePending := h₂.imagePending.trans h₁.imagePending
  sticky := calc
    n.flags &&& n₂.flags = n.flags &&& (n₁.flags &&& n₂.flags) := by rw [← BitVec.and_assoc, h₁.sticky]
    _ = n.flags := by rw [h₂.sticky, h₁.sticky]

theorem Npx.setTag_change (n : Npx) (p : RegNum) (t : Tag) : NumericChange n (n.setTag p t) :=
  .of_flags_eq rfl rfl rfl rfl

theorem Npx.setSt_change (n : Npx) (i : RegNum) (v : TempReal) : NumericChange n (n.setSt i v) :=
  .of_flags_eq rfl rfl rfl rfl

theorem Npx.pushValue_change (n : Npx) (v : TempReal) : NumericChange n (n.pushValue v) :=
  .of_flags_eq rfl rfl rfl rfl

theorem Npx.withCc_change (n : Npx) (c : BitVec 4) : NumericChange n { n with cc := c } :=
  .of_flags_eq rfl rfl rfl rfl

theorem Npx.withTop_change (n : Npx) (p : RegNum) : NumericChange n { n with top := p } :=
  .of_flags_eq rfl rfl rfl rfl

theorem Npx.pop_change (n : Npx) : NumericChange n n.pop := .of_flags_eq rfl rfl rfl rfl

theorem Npx.pops_change (n : Npx) (k : Nat) : NumericChange n (n.pops k) := by
  induction k generalizing n with
  | zero => exact .refl n
  | succ k ih => exact n.pop_change.trans (ih n.pop)

theorem Npx.raise_change (n : Npx) (f : Flags) : NumericChange n (n.raise f) := ⟨rfl, rfl, rfl, flags_sticky ..⟩

theorem Npx.latch_change (n : Npx) (i : Instr) (a b c d : Word) (k : BitVec 4) :
    NumericChange n (n.latch i a b c d k) := .of_flags_eq rfl rfl rfl rfl

theorem Npx.loadUndefined_change (n : Npx) (draw : Nat) (dest : Option RegNum) :
    NumericChange n (n.loadUndefined draw dest) := by
  cases dest <;> exact .of_flags_eq rfl rfl rfl rfl

/-- After interrupt 9 a flag is as before the instruction, or as the instruction left it. -/
theorem Npx.afterOverrun_sticky {s : State} (h : s.npx.flags &&& n.flags = s.npx.flags) (i : Instr) (m : MemArg)
    (left : Nat) (sets clears : Flags) (new : Npx) :
    s.npx.flags &&& (n.afterOverrun s i m left sets clears new).flags = s.npx.flags := by
  rcases n.afterOverrun_cases s i m left sets clears new with ⟨_, hn⟩ | ⟨_, hflags, _⟩
  · rw [hn]
    exact h
  · rw [hflags, BitVec.and_self]

theorem NumericChange.afterOverrun {s : State} (h : NumericChange s.npx n) (i : Instr) (m : MemArg) (left : Nat)
    (sets clears : Flags) (new : Npx) : NumericChange s.npx (n.afterOverrun s i m left sets clears new) where
  cw := (Npx.afterOverrun_cw ..).trans h.cw
  pm := (Npx.afterOverrun_pm ..).trans h.pm
  imagePending := (Npx.afterOverrun_imagePending ..).trans h.imagePending
  sticky := Npx.afterOverrun_sticky h.sticky ..

/-- An instruction that ends in `commit` keeps what its effect keeps. -/
theorem Npx.commit_change {α : Type} (n : Npx) (o : Out α) {effect : Npx → α → Npx}
    (heff : ∀ n v, NumericChange n (effect n v)) : NumericChange n (n.commit o effect) := by
  rcases n.commit_cases o effect with ⟨_, h⟩ | ⟨v, _, h⟩
  · rw [h]
    exact n.raise_change _
  · rw [h]
    exact (n.raise_change _).trans (heff _ v)

end

/-! ### The effects of the numeric instructions (spec 40 to 44) -/

section
variable (n : Npx)

theorem Npx.arithReg_change (op : BinOp) (rev : Bool) (dst src : RegNum) (pops : Nat) :
    NumericChange n (n.arithReg op rev dst src pops) :=
  n.commit_change _ fun n v => (n.setSt_change dst v).trans (Npx.pops_change _ pops)

theorem Npx.arithMem_change (op : BinOp) (rev : Bool) (b : Source) : NumericChange n (n.arithMem op rev b) :=
  n.commit_change _ fun n v => n.setSt_change 0 v

theorem Npx.onTop_change (f : Word → TempReal → Out TempReal) : NumericChange n (n.onTop f) :=
  n.commit_change _ fun n v => n.setSt_change 0 v

theorem Npx.changeSign_change (f : Bool → Bool) : NumericChange n (n.changeSign f) :=
  n.commit_change _ fun n v => n.setSt_change 0 v

theorem Npx.scale_change (draw : Nat) : NumericChange n (n.scale draw) :=
  n.commit_change _ fun n v => n.setSt_change 0 v

theorem Npx.prem_change (old : BitVec 4) : NumericChange n (n.prem old) :=
  n.commit_change _ fun n v => (n.setSt_change 0 v.1).trans (Npx.withCc_change _ _)

theorem Npx.xtract_change : NumericChange n n.xtract :=
  n.commit_change _ fun n v => (n.setSt_change 0 v.1).trans (Npx.pushValue_change _ v.2)

theorem Npx.compared_change (o : Out Order) (pops : Nat) : NumericChange n (n.compared o pops) :=
  n.commit_change _ fun n _ => (n.withCc_change _).trans (Npx.pops_change _ pops)

theorem Npx.compareReg_change (i : RegNum) (pops : Nat) : NumericChange n (n.compareReg i pops) :=
  n.compared_change _ pops

theorem Npx.compareMem_change (b : Source) (pops : Nat) : NumericChange n (n.compareMem b pops) :=
  n.compared_change _ pops

theorem Npx.examine_change : NumericChange n n.examine := n.withCc_change _

theorem Npx.push_change (v : TempReal) : NumericChange n (n.push v) := n.commit_change _ Npx.pushValue_change

theorem Npx.pushSource_change (src : Source) : NumericChange n (n.pushSource src) := by
  unfold Npx.pushSource
  split
  · exact n.commit_change _ Npx.pushValue_change
  · exact n.push_change _

theorem Npx.pushSt_change (i : RegNum) : NumericChange n (n.pushSt i) := n.commit_change _ Npx.pushValue_change

theorem Npx.copyTop_change (i : RegNum) (pops : Nat) : NumericChange n (n.copyTop i pops) :=
  n.commit_change _ fun n v => (n.setSt_change i v).trans (Npx.pops_change _ pops)

theorem Npx.exchange_change (i : RegNum) : NumericChange n (n.exchange i) :=
  n.commit_change _ fun n v => (n.setSt_change 0 v.2).trans <| (Npx.setSt_change _ i v.1).trans <|
    (Npx.setTag_change _ _ _).trans (Npx.setTag_change _ _ _)

theorem Npx.transc2_change (value : TempReal → TempReal → Out TempReal) : NumericChange n (n.transc2 value) :=
  n.commit_change _ fun n v => (n.setSt_change 1 v).trans (Npx.pop_change _)

theorem Npx.ptan_change (draw : Nat) : NumericChange n (n.ptan draw) :=
  n.commit_change _ fun n v => (n.setSt_change 0 v.1).trans (Npx.pushValue_change _ v.2)

theorem Npx.f2xm1_change (draw : Nat) : NumericChange n (n.f2xm1 draw) :=
  n.commit_change _ fun n v => n.setSt_change 0 v

end

/-! ### The steps of the numeric instructions -/

/-- What every step of a numeric instruction keeps. -/
structure NumericStep (s t : State) : Prop where
  host : HostKept s t
  npx : NumericChange s.npx t.npx

theorem NotRun.numericStep {i : Instr} {s t : State} (h : NotRun i s t) : NumericStep s t :=
  ⟨h.hostKept, h.npx ▸ .refl _⟩

section
variable {pc : Bool} {i : Instr} {m : MemArg} {words pops : Nat} {s t : State}

theorem neuRegister_step {f : Npx → Npx} (hf : ∀ n, NumericChange n (f n)) (h : neuRegister pc i f s = .next t) :
    NumericStep s t := by
  rcases neuRegister_next h with h | rfl
  · exact h.numericStep
  · exact ⟨s.finish_hostKept .., (s.npx.latch_change ..).trans (hf _)⟩

theorem neuLoad_step {dest : Option RegNum} {f : List Byte → Npx → Npx} (hf : ∀ b n, NumericChange n (f b n))
    (h : neuLoad pc i m words dest f s = .next t) : NumericStep s t := by
  have hlatch : NumericChange s.npx (s.latchedMem i m) := s.npx.latch_change ..
  rcases neuLoad_next h with h | rfl | ⟨left, new, rfl⟩
  · exact h.numericStep
  · exact ⟨s.finish_hostKept .., hlatch.trans (hf _ _)⟩
  · refine ⟨takeOverrun_hostKept .., ?_⟩
    rw [takeOverrun_npx]
    exact (hlatch.trans (Npx.loadUndefined_change ..)).afterOverrun ..

theorem neuStore_step {value : Npx → Out Nat} (h : neuStore i m words pops value s = .next t) : NumericStep s t := by
  rcases neuStore_next h with h | ⟨k, flags, hhost, hnpx⟩
  · exact h.numericStep
  have hpops : NumericChange s.npx (((s.latchedMem i m).raise flags).pops k) :=
    (s.npx.latch_change ..).trans ((Npx.raise_change _ flags).trans (Npx.pops_change _ k))
  refine ⟨hhost, ?_⟩
  rcases hnpx with hnpx | ⟨left, new, hnpx⟩
  · rw [hnpx]
    exact hpops
  · rw [hnpx]
    exact hpops.afterOverrun ..

end

/-- WAIT and the control instructions of spec 45, but for FINCSTP, FDECSTP, FFREE and FNOP, which the NEU takes as it
takes numeric instructions. -/
def isControl : Instr → Bool
  | .fldenvM14 _ _ | .fldcwM2 _ _ | .fnstenvM14 _ _ | .fnstcwM2 _ _ | .fneni _ | .fndisi _ | .fnclex _ | .fninit _
  | .fsetpm _ | .frstorM94 _ _ | .fnsaveM94 _ _ | .fnstswM2 _ _ | .fnstswAx _ | .fwait _ => true
  | _ => false

/-- Every step of a numeric instruction is one of the three shapes of the NEU, whose effect keeps what `NumericChange`
lists. -/
theorem exec_numericStep {i : Instr} {s t : State} (hi : isControl i = false) (h : exec i s = .next t) :
    NumericStep s t := by
  unfold exec at h
  cases i with
  | faddStSti p k | faddStiSt p k | faddpStiSt p k | fsubStSti p k | fsubStiSt p k | fsubpStiSt p k | fsubrStSti p k
  | fsubrStiSt p k | fsubrpStiSt p k | fmulStSti p k | fmulStiSt p k | fmulpStiSt p k | fdivStSti p k | fdivStiSt p k
  | fdivpStiSt p k | fdivrStSti p k | fdivrStiSt p k | fdivrpStiSt p k =>
    exact neuRegister_step (fun n => n.arithReg_change ..) h
  | faddM32r p m | faddM64r p m | fiaddM16i p m | fiaddM32i p m | fsubM32r p m | fsubM64r p m | fisubM16i p m
  | fisubM32i p m | fsubrM32r p m | fsubrM64r p m | fisubrM16i p m | fisubrM32i p m | fmulM32r p m | fmulM64r p m
  | fimulM16i p m | fimulM32i p m | fdivM32r p m | fdivM64r p m | fidivM16i p m | fidivM32i p m | fdivrM32r p m
  | fdivrM64r p m | fidivrM16i p m | fidivrM32i p m =>
    exact neuLoad_step (fun _ n => n.arithMem_change ..) h
  | fsqrt p | frndint p => exact neuRegister_step (fun n => n.onTop_change _) h
  | fabs p | fchs p => exact neuRegister_step (fun n => n.changeSign_change _) h
  | fscale p => exact neuRegister_step (fun n => n.scale_change _) h
  | fprem p => exact neuRegister_step (fun n => n.prem_change _) h
  | fxtract p => exact neuRegister_step (fun n => n.xtract_change) h
  | fcomSti p k | fcompSti p k => exact neuRegister_step (fun n => n.compareReg_change ..) h
  | fcompp p => exact neuRegister_step (fun n => n.compareReg_change ..) h
  | ftst p => exact neuRegister_step (fun n => n.compareMem_change ..) h
  | fxam p => exact neuRegister_step (fun n => n.examine_change) h
  | fcomM32r p m | fcomM64r p m | ficomM16i p m | ficomM32i p m | fcompM32r p m | fcompM64r p m | ficompM16i p m
  | ficompM32i p m =>
    exact neuLoad_step (fun _ n => n.compareMem_change ..) h
  | fldz p | fld1 p | fldpi p | fldl2t p | fldl2e p | fldlg2 p | fldln2 p =>
    exact neuRegister_step (fun n => n.push_change _) h
  | fldM32r p m | fldM64r p m => exact neuLoad_step (fun _ n => n.pushSource_change _) h
  | fldM80r p m | fildM16i p m | fildM32i p m | fildM64i p m | fbldM80d p m =>
    exact neuLoad_step (fun _ n => n.push_change _) h
  | fstM32r p m | fstM64r p m | fstpM32r p m | fstpM64r p m | fstpM80r p m | fistM16i p m | fistM32i p m
  | fistpM16i p m | fistpM32i p m | fistpM64i p m | fbstpM80d p m =>
    exact neuStore_step h
  | fldSti p k => exact neuRegister_step (fun n => n.pushSt_change k) h
  | fstSti p k | fstpSti p k => exact neuRegister_step (fun n => n.copyTop_change ..) h
  | fxchSti p k => exact neuRegister_step (fun n => n.exchange_change k) h
  | fptan p => exact neuRegister_step (fun n => n.ptan_change _) h
  | f2xm1 p => exact neuRegister_step (fun n => n.f2xm1_change _) h
  | fpatan p | fyl2x p | fyl2xp1 p => exact neuRegister_step (fun n => n.transc2_change _) h
  | fincstp p | fdecstp p => exact neuRegister_step (fun n => n.withTop_change _) h
  | ffreeSti p k => exact neuRegister_step (fun n => n.setTag_change ..) h
  | fnop p => exact neuRegister_step .refl h
  | fldenvM14 | fldcwM2 | fnstenvM14 | fnstcwM2 | fneni | fndisi | fnclex | fninit | fsetpm | frstorM94 | fnsaveM94
  | fnstswM2 | fnstswAx | fwait => cases hi

/-! ## What the control instructions keep -/

section
variable {checks : Bool} {i : Instr} {m : MemArg} {words : Nat} {s t : State}

theorem controlRegister_hostKept {f : Npx → Npx} (h : controlRegister checks i f s = .next t) : HostKept s t := by
  rcases controlRegister_next h with h | rfl
  · exact h.hostKept
  · exact s.finish_hostKept ..

theorem storeControl_hostKept {value : State → Word} (h : storeControl i m value s = .next t) : HostKept s t := by
  rcases storeControl_next h with h | ⟨b, rfl | rfl⟩
  · exact h.hostKept
  · exact (State.advance_hostKept ..).of_storeOperand
  · exact (State.finish_hostKept ..).of_storeOperand

theorem loadControl_hostKept {f : Npx → List Byte → Npx} (h : loadControl i m words f s = .next t) : HostKept s t := by
  rcases loadControl_next h with h | ⟨b, rfl | ⟨left, sets, clears, new, rfl⟩⟩
  · exact h.hostKept
  · exact s.finish_hostKept ..
  · exact takeOverrun_hostKept ..

theorem storeImage_hostKept {image : State → List Byte} {after : Npx → Npx}
    (h : storeImage i m words image after s = .next t) : HostKept s t := by
  rcases storeImage_next h with h | ⟨h, _⟩
  · exact h.hostKept
  · exact h

/-- What holds of the NPX before and of what `f` makes of it holds after a control instruction without operand. -/
theorem controlRegister_npx {P : Npx → Prop} {f : Npx → Npx} (hs : P s.npx) (hf : P (f s.npx))
    (h : controlRegister checks i f s = .next t) : P t.npx := by
  rcases controlRegister_next h with h | rfl
  · exact h.npx ▸ hs
  · exact hf

theorem storeControl_npx {value : State → Word} (h : storeControl i m value s = .next t) : t.npx = s.npx := by
  rcases storeControl_next h with h | ⟨b, rfl | rfl⟩
  · exact h.npx
  · rfl
  · rfl

/-- What holds of the NPX before and of all that a load may make of it, and outlasts interrupt 9, holds after it. -/
theorem loadControl_npx {P : Npx → Prop} {f : Npx → List Byte → Npx} (hs : P s.npx) (hf : ∀ b, P (f s.npx b))
    (ho : ∀ n left sets clears new, P n → P (n.afterOverrun s i m left sets clears new))
    (h : loadControl i m words f s = .next t) : P t.npx := by
  rcases loadControl_next h with h | ⟨b, rfl | ⟨left, sets, clears, new, rfl⟩⟩
  · exact h.npx ▸ hs
  · exact hf b
  · rw [takeOverrun_npx]
    exact ho _ _ _ _ _ (hf b)

theorem storeImage_npx {P : Npx → Prop} {image : State → List Byte} {after : Npx → Npx} (hs : P s.npx)
    (hf : P (after s.npx)) (hp : ∀ n, P n → P { n with imagePending := true })
    (ho : ∀ n left sets clears new, P n → P (n.afterOverrun s i m left sets clears new))
    (h : storeImage i m words image after s = .next t) : P t.npx := by
  rcases storeImage_next h with h | ⟨_, n, hn, hnpx⟩
  · exact h.npx ▸ hs
  have hPn : P n := by
    rcases hn with rfl | rfl
    · exact hs
    · exact hf
  rcases hnpx with hnpx | ⟨left, sets, clears, new, hnpx⟩
  · exact hnpx ▸ hp n hPn
  · exact hnpx ▸ ho _ _ _ _ _ hPn

theorem loadControl_pm {f : Npx → List Byte → Npx} (hf : ∀ b, (f s.npx b).pm = s.npx.pm)
    (h : loadControl i m words f s = .next t) : t.npx.pm = s.npx.pm :=
  loadControl_npx (P := (·.pm = s.npx.pm)) rfl hf (fun _ _ _ _ _ hn => (Npx.afterOverrun_pm ..).trans hn) h

theorem storeImage_pm {image : State → List Byte} {after : Npx → Npx} (hf : (after s.npx).pm = s.npx.pm)
    (h : storeImage i m words image after s = .next t) : t.npx.pm = s.npx.pm :=
  storeImage_npx (P := (·.pm = s.npx.pm)) rfl hf (fun _ hn => hn)
    (fun _ _ _ _ _ hn => (Npx.afterOverrun_pm ..).trans hn) h

theorem loadControl_sticky {f : Npx → List Byte → Npx} (hf : ∀ b, s.npx.flags &&& (f s.npx b).flags = s.npx.flags)
    (h : loadControl i m words f s = .next t) : s.npx.flags &&& t.npx.flags = s.npx.flags :=
  loadControl_npx (P := fun n => s.npx.flags &&& n.flags = s.npx.flags) BitVec.and_self hf
    (fun _ _ _ _ _ hn => Npx.afterOverrun_sticky hn ..) h

theorem storeImage_sticky {image : State → List Byte} {after : Npx → Npx}
    (hf : s.npx.flags &&& (after s.npx).flags = s.npx.flags) (h : storeImage i m words image after s = .next t) :
    s.npx.flags &&& t.npx.flags = s.npx.flags :=
  storeImage_npx (P := fun n => s.npx.flags &&& n.flags = s.npx.flags) BitVec.and_self hf (fun _ hn => hn)
    (fun _ _ _ _ _ hn => Npx.afterOverrun_sticky hn ..) h

theorem execFwait_next {p : List Seg} (h : execFwait p s = .next t) :
    NotRun (.fwait p) s t ∨ t = { s with npx := { s.npx with imagePending := false } }.advance (.fwait p) := by
  unfold execFwait at h
  split at h
  · cases h
  split at h
  · cases h
    exact .inl (.trapped _)
  split at h
  · cases h
    exact .inl .skipped
  split at h
  · cases h
    exact .inl (.trapped _)
  split at h
  · cases h
    exact .inl .waits
  · cases h
    exact .inr rfl

theorem execFwait_hostKept {p : List Seg} (h : execFwait p s = .next t) : HostKept s t := by
  rcases execFwait_next h with h | rfl
  · exact h.hostKept
  · exact ⟨rfl, rfl⟩

/-- A WAIT is to the NPX only the end of a pending image (spec 70 R441). -/
theorem execFwait_npx {p : List Seg} (h : execFwait p s = .next t) :
    t.npx = { s.npx with imagePending := t.npx.imagePending } := by
  rcases execFwait_next h with h | rfl
  · rw [h.npx]
  · rfl

/-- FNSTSW AX does not touch the NPX, and of the 80286 it changes AX besides IP. -/
theorem execFnstswAx_keeps {p : List Seg} (h : execFnstswAx p s = .next t) :
    t.npx = s.npx ∧ ∃ ax, HostKept { s with cpu := { s.cpu with ax := ax } } t := by
  rcases startEsc_notRun_or (.fnstswAx p) h with h | h | h
  · exact ⟨h.npx, s.cpu.ax, h.hostKept⟩
  · cases h
    exact ⟨rfl, _, State.advance_hostKept ..⟩
  · cases h
    exact ⟨rfl, _, State.finish_hostKept ..⟩

end

/-! ## The frame of the whole table -/

/-- Every instruction but FNSTSW AX changes of the 80286 at most IP, SP, FLAGS and CS. -/
theorem exec_hostKept {i : Instr} {s t : State} (hi : ∀ p, i ≠ .fnstswAx p) (h : exec i s = .next t) :
    HostKept s t := by
  have hexec := h
  unfold exec at h
  cases i with
  | fldenvM14 p m | fldcwM2 p m | frstorM94 p m => exact loadControl_hostKept h
  | fnstenvM14 p m | fnsaveM94 p m => exact storeImage_hostKept h
  | fnstcwM2 p m | fnstswM2 p m => exact storeControl_hostKept h
  | fneni p | fndisi p | fnclex p | fninit p | fsetpm p => exact controlRegister_hostKept h
  | fwait p => exact execFwait_hostKept h
  | fnstswAx p => exact absurd rfl (hi p)
  | _ => exact (exec_numericStep rfl hexec).host

theorem Npx.loadEnvironment_pm (n : Npx) (b : List Byte) : (n.loadEnvironment b).pm = n.pm := by
  unfold Npx.loadEnvironment
  dsimp only
  split <;> rfl

theorem Npx.restore_pm (n : Npx) (b : List Byte) : (n.restore b).pm = n.pm := n.loadEnvironment_pm b

/-- Every instruction but FSETPM keeps the mode of the NPX (spec 45 R321). -/
theorem exec_pm {i : Instr} {s t : State} (hi : ∀ p, i ≠ .fsetpm p) (h : exec i s = .next t) :
    t.npx.pm = s.npx.pm := by
  have hexec := h
  unfold exec at h
  cases i with
  | fldenvM14 p m => exact loadControl_pm s.npx.loadEnvironment_pm h
  | frstorM94 p m => exact loadControl_pm s.npx.restore_pm h
  | fldcwM2 p m => exact loadControl_pm (fun _ => rfl) h
  | fnstenvM14 p m | fnsaveM94 p m => exact storeImage_pm rfl h
  | fnstcwM2 p m | fnstswM2 p m => rw [storeControl_npx h]
  | fneni p | fndisi p | fnclex p | fninit p => exact controlRegister_npx (P := (·.pm = s.npx.pm)) rfl rfl h
  | fwait p => rw [execFwait_npx h]
  | fnstswAx p => rw [(execFnstswAx_keeps h).1]
  | fsetpm p => exact absurd rfl (hi p)
  | _ => exact (exec_numericStep rfl hexec).npx.pm

/-- Protected operation of the NPX, once set, stays (spec 45 R321, 70 R423). -/
theorem exec_pm_true {i : Instr} {s t : State} (h : exec i s = .next t) (hpm : s.npx.pm = true) :
    t.npx.pm = true := by
  by_cases hi : ∃ p, i = .fsetpm p
  · obtain ⟨p, rfl⟩ := hi
    unfold exec at h
    exact controlRegister_npx (P := (·.pm = true)) hpm rfl h
  · exact (exec_pm (fun p hp => hi ⟨p, hp⟩) h).trans hpm

/-- Only FNINIT, FNSAVE, FNCLEX, FLDENV and FRSTOR clear an exception flag (spec 60 R368). -/
theorem exec_sticky {i : Instr} {s t : State} (hclex : ∀ p, i ≠ .fnclex p) (hinit : ∀ p, i ≠ .fninit p)
    (hsave : ∀ p m, i ≠ .fnsaveM94 p m) (hldenv : ∀ p m, i ≠ .fldenvM14 p m) (hrstor : ∀ p m, i ≠ .frstorM94 p m)
    (h : exec i s = .next t) : s.npx.flags &&& t.npx.flags = s.npx.flags := by
  have hexec := h
  unfold exec at h
  have hself : s.npx.flags &&& s.npx.flags = s.npx.flags := BitVec.and_self
  cases i with
  | fldcwM2 p m => exact loadControl_sticky (fun _ => hself) h
  | fnstenvM14 p m => exact storeImage_sticky hself h
  | fnstcwM2 p m | fnstswM2 p m => rw [storeControl_npx h, hself]
  | fneni p | fndisi p | fsetpm p =>
    exact controlRegister_npx (P := fun n => s.npx.flags &&& n.flags = s.npx.flags) hself hself h
  | fwait p => rw [execFwait_npx h, hself]
  | fnstswAx p => rw [(execFnstswAx_keeps h).1, hself]
  | fnclex p => exact absurd rfl (hclex p)
  | fninit p => exact absurd rfl (hinit p)
  | fnsaveM94 p m => exact absurd rfl (hsave p m)
  | fldenvM14 p m => exact absurd rfl (hldenv p m)
  | frstorM94 p m => exact absurd rfl (hrstor p m)
  | _ => exact (exec_numericStep rfl hexec).npx.sticky

/-- Only FNINIT, FNSAVE, FLDCW, FNSTENV, FLDENV and FRSTOR change the control word (spec 10 R38). -/
theorem exec_cw {i : Instr} {s t : State} (hldcw : ∀ p m, i ≠ .fldcwM2 p m) (hstenv : ∀ p m, i ≠ .fnstenvM14 p m)
    (hinit : ∀ p, i ≠ .fninit p) (hsave : ∀ p m, i ≠ .fnsaveM94 p m) (hldenv : ∀ p m, i ≠ .fldenvM14 p m)
    (hrstor : ∀ p m, i ≠ .frstorM94 p m) (h : exec i s = .next t) : t.npx.cw = s.npx.cw := by
  have hexec := h
  unfold exec at h
  cases i with
  | fnstcwM2 p m | fnstswM2 p m => rw [storeControl_npx h]
  | fneni p | fndisi p | fsetpm p | fnclex p => exact controlRegister_npx (P := (·.cw = s.npx.cw)) rfl rfl h
  | fwait p => rw [execFwait_npx h]
  | fnstswAx p => rw [(execFnstswAx_keeps h).1]
  | fldcwM2 p m => exact absurd rfl (hldcw p m)
  | fnstenvM14 p m => exact absurd rfl (hstenv p m)
  | fninit p => exact absurd rfl (hinit p)
  | fnsaveM94 p m => exact absurd rfl (hsave p m)
  | fldenvM14 p m => exact absurd rfl (hldenv p m)
  | frstorM94 p m => exact absurd rfl (hrstor p m)
  | _ => exact (exec_numericStep rfl hexec).npx.cw

/-- With AX as the instruction leaves it, every instruction changes of the 80286 at most IP, SP, FLAGS and CS. -/
theorem exec_hostKept_withAx {i : Instr} {s t : State} (h : exec i s = .next t) :
    ∃ ax, HostKept { s with cpu := { s.cpu with ax := ax } } t ∧ ((∀ p, i ≠ .fnstswAx p) → ax = s.cpu.ax) := by
  by_cases hi : ∃ p, i = .fnstswAx p
  · obtain ⟨p, rfl⟩ := hi
    obtain ⟨_, ax, hhost⟩ := execFnstswAx_keeps h
    exact ⟨ax, hhost, fun hne => absurd rfl (hne p)⟩
  · exact ⟨s.cpu.ax, exec_hostKept (fun p hp => hi ⟨p, hp⟩) h, fun _ => rfl⟩

/-- Settles O8, from the frame of the 80286 and of PM over the whole table. -/
theorem hostAndModeKept : Obligations.HostAndModeKept := by
  intro i s t h
  obtain ⟨ax, ⟨hplatform, hcpu⟩, hax⟩ := exec_hostKept_withAx h
  refine ⟨hplatform, (congrArg Cpu.bx hcpu :), (congrArg Cpu.bp hcpu :), (congrArg Cpu.si hcpu :),
    (congrArg Cpu.di hcpu :), (congrArg Cpu.ds hcpu :), (congrArg Cpu.es hcpu :), (congrArg Cpu.ss hcpu :),
    (congrArg Cpu.mp hcpu :), (congrArg Cpu.em hcpu :), (congrArg Cpu.ts hcpu :), (congrArg Cpu.protectedMode hcpu :),
    fun hi => (congrArg Cpu.ax hcpu :).trans (hax hi), exec_pm_true h, fun hpm => ?_⟩
  by_contra hi
  exact hpm (exec_pm (fun p hp => hi ⟨p, hp⟩) h)

/-- Settles O9, from the writers of the flags and of the control word over the whole table. -/
theorem flagsAndControlWordWriters : Obligations.FlagsAndControlWordWriters := by
  intro i s t h hinit hsave hldenv hrstor
  exact ⟨fun hclex => exec_sticky hclex hinit hsave hldenv hrstor h,
    fun hldcw hstenv => exec_cw hldcw hstenv hinit hsave hldenv hrstor h⟩

end Sys2Proof.Machine
end

section
/-! PROOFS. Temporary reals from their fields and as rational values: what `packReal` shows, what each class says of the
fields, and the sign and magnitude of a value. -/

namespace Sys2Proof.Machine

open Sys2Proof.Config (Mag)

/-! ## The fields of a temporary real (spec 10 R21) -/

@[simp] theorem signOf_packReal (neg : Bool) (e m : Nat) : signOf (packReal neg e m) = neg := by
  unfold signOf packReal
  repeat rw [BitVec.getLsbD_append]
  simp

@[simp] theorem expField_packReal (neg : Bool) (e m : Nat) : expField (packReal neg e m) = e % 2 ^ 15 := by
  unfold expField packReal
  rw [BitVec.extractLsb'_append_eq_of_le (by decide), BitVec.extractLsb'_append_eq_right]
  exact BitVec.toNat_ofNat ..

@[simp] theorem sigOf_packReal (neg : Bool) (e m : Nat) : sigOf (packReal neg e m) = m % 2 ^ 64 := by
  unfold sigOf packReal
  rw [BitVec.extractLsb'_append_eq_right]
  exact BitVec.toNat_ofNat ..

theorem expField_lt (r : TempReal) : expField r < 2 ^ 15 := BitVec.isLt _

theorem sigOf_lt (r : TempReal) : sigOf r < 2 ^ 64 := BitVec.isLt _

/-- A temporary real is packed from its own fields. -/
theorem packReal_fields (r : TempReal) : packReal (signOf r) (expField r) (sigOf r) = r := by
  unfold packReal signOf expField sigOf
  rw [BitVec.ofNat_toNat, BitVec.ofNat_toNat, BitVec.setWidth_eq, BitVec.setWidth_eq]
  apply BitVec.eq_of_getLsbD_eq
  intro i hi
  repeat rw [BitVec.getLsbD_append]
  simp only [BitVec.getLsbD_extractLsb']
  split
  case isTrue hsig => simp [hsig]
  case isFalse hsig =>
    split
    case isTrue hexp => simp [hexp, show 64 + (i - 64) = i by omega]
    case isFalse hexp =>
      obtain rfl : i = 79 := by omega
      simp

/-! ## The classes (spec 11 R67) -/

theorem classOf_eq_zero_iff {r : TempReal} : classOf r = .zero ↔ expField r = 0 ∧ sigOf r = 0 := by
  unfold classOf
  grind

theorem classOf_eq_infinity_iff {r : TempReal} : classOf r = .infinity ↔ expField r = 0x7FFF ∧ sigOf r = 2 ^ 63 := by
  unfold classOf
  grind

theorem classOf_eq_nan_iff {r : TempReal} : classOf r = .nan ↔ expField r = 0x7FFF ∧ sigOf r ≠ 2 ^ 63 := by
  unfold classOf
  grind

theorem classOf_eq_normal_iff {r : TempReal} :
    classOf r = .normal ↔ 0 < expField r ∧ expField r < 0x7FFF ∧ 2 ^ 63 ≤ sigOf r := by
  have := expField_lt r
  unfold classOf
  grind

/-- The infinity of a sign is the only infinity of that sign. -/
theorem infinityOf_signOf {r : TempReal} (h : classOf r = .infinity) : infinityOf (signOf r) = r := by
  obtain ⟨hexp, hsig⟩ := classOf_eq_infinity_iff.mp h
  unfold infinityOf
  rw [← hexp, show (0x8000000000000000 : Nat) = sigOf r from hsig.symm]
  exact packReal_fields r

/-! ## Values -/

/-- The factor a sign contributes to a value. -/
def signFactor (neg : Bool) : ℚ := if neg then -1 else 1

theorem regVal_eq (r : TempReal) : regVal r = signFactor (signOf r) * magVal (magOf r) := rfl

theorem signFactor_not (neg : Bool) : signFactor (!neg) = -signFactor neg := by cases neg <;> simp [signFactor]

theorem signFactor_bne (s t : Bool) : signFactor (s != t) = signFactor s * signFactor t := by
  cases s <;> cases t <;> simp [signFactor]

theorem signFactor_ne_zero (neg : Bool) : signFactor neg ≠ 0 := by cases neg <;> simp [signFactor]

theorem signFactor_div_self (neg : Bool) (x : ℚ) : x / signFactor neg = x * signFactor neg := by
  cases neg <;> simp [signFactor, div_neg]

/-- A nonzero value has one sign and one magnitude. -/
theorem sign_magnitude_unique {s t : Bool} {u v : ℚ} (hu : 0 ≤ u) (hv : 0 < v)
    (h : signFactor s * u = signFactor t * v) : s = t ∧ u = v := by
  by_cases hst : s = t
  case pos => exact ⟨hst, mul_left_cancel₀ (signFactor_ne_zero s) (hst ▸ h)⟩
  case neg =>
    have hsum : signFactor s * (u + v) = 0 := by
      rw [Bool.eq_not.mpr (Ne.symm hst), signFactor_not] at h
      linarith
    have := (mul_eq_zero.mp hsum).resolve_left (signFactor_ne_zero s)
    linarith

theorem magVal_nonneg (x : Mag) : 0 ≤ magVal x := by unfold magVal; positivity

theorem magVal_pos {x : Mag} (hn : x.num ≠ 0) (hd : x.den ≠ 0) : 0 < magVal x := by
  unfold magVal
  have := Nat.pos_of_ne_zero hn
  have := Nat.pos_of_ne_zero hd
  positivity

/-- With a denominator that is not zero, `magZero` is the test that the value is zero. -/
theorem magZero_iff {x : Mag} (hd : x.den ≠ 0) : magZero x = true ↔ magVal x = 0 := by
  simp [magZero, magVal, hd, zpow_ne_zero]

@[simp] theorem magOf_num (r : TempReal) : (magOf r).num = sigOf r := rfl

@[simp] theorem magOf_den (r : TempReal) : (magOf r).den = 1 := rfl

theorem magOf_exp {r : TempReal} (h : expField r ≠ 0) : (magOf r).exp = (expField r : Int) - 16446 := by
  simp [magOf, h]

theorem magVal_magOf (r : TempReal) : magVal (magOf r) = sigOf r * (2 : ℚ) ^ (magOf r).exp := by simp [magVal]

theorem magVal_magOf_pos {r : TempReal} (h : classOf r = .normal) : 0 < magVal (magOf r) := by
  obtain ⟨_, _, hsig⟩ := classOf_eq_normal_iff.mp h
  exact magVal_pos (x := magOf r) (by rw [magOf_num]; omega) one_ne_zero

end Sys2Proof.Machine
end

section
/-! PROOFS. Exact magnitudes as rational values: the scale of a grid, the binary order, the sum, product and quotient,
and rounding (spec 11 R80). -/

namespace Sys2Proof.Machine

open Sys2Proof.Config (Mag)
open Sys2Proof.Safety (RoundsTo)

/-! ## The quotient by a grid -/

theorem shiftLeft_cast (n k : Nat) : ((n <<< k : Nat) : ℚ) = n * (2 : ℚ) ^ (k : Int) := by
  simp [Nat.shiftLeft_eq]

theorem scaled_den_pos {x : Mag} (hd : x.den ≠ 0) (g : Int) : 0 < (scaled x g).2 := by
  have := Nat.pos_of_ne_zero hd
  unfold scaled
  dsimp only
  split
  · exact this
  · simpa [Nat.shiftLeft_eq] using this

/-- `scaled` is the exact quotient of the magnitude by 2^g. -/
theorem scaled_val (x : Mag) (g : Int) : ((scaled x g).1 : ℚ) / (scaled x g).2 = magVal x / (2 : ℚ) ^ g := by
  have hgrid : magVal x / (2 : ℚ) ^ g = x.num / x.den * (2 : ℚ) ^ (x.exp - g) := by
    rw [magVal, zpow_sub₀ two_ne_zero, mul_div_assoc]
  rw [hgrid]
  unfold scaled
  dsimp only
  split
  case isTrue h =>
    rw [shiftLeft_cast, Int.toNat_of_nonneg h, mul_div_right_comm]
  case isFalse h =>
    rw [shiftLeft_cast, Int.toNat_of_nonneg (by omega), zpow_neg]
    field_simp

/-! ## The binary order -/

theorem log2_bounds {n : Nat} (h : n ≠ 0) :
    (2 : ℚ) ^ (n.log2 : Int) ≤ n ∧ (n : ℚ) < (2 : ℚ) ^ ((n.log2 : Int) + 1) := by
  refine ⟨?_, ?_⟩
  · exact_mod_cast Nat.log2_self_le h
  · exact_mod_cast @Nat.lt_log2_self n

/-- `magLog` is the exponent of the power of two at or below a positive magnitude. -/
theorem magLog_bounds {x : Mag} (hn : x.num ≠ 0) (hd : x.den ≠ 0) :
    (2 : ℚ) ^ magLog x ≤ magVal x ∧ magVal x < (2 : ℚ) ^ (magLog x + 1) := by
  obtain ⟨hnlo, hnhi⟩ := log2_bounds hn
  obtain ⟨hdlo, hdhi⟩ := log2_bounds hd
  have hden : (0 : ℚ) < x.den := by exact_mod_cast Nat.pos_of_ne_zero hd
  have hscale : (0 : ℚ) < (2 : ℚ) ^ x.exp := by positivity
  have htest : x.den <<< x.num.log2 ≤ x.num <<< x.den.log2 ↔
      (2 : ℚ) ^ ((x.num.log2 : Int) - x.den.log2) ≤ x.num / x.den := by
    rw [← Nat.cast_le (α := ℚ), shiftLeft_cast, shiftLeft_cast, zpow_sub₀ two_ne_zero,
      div_le_div_iff₀ (by positivity) hden, mul_comm]
  unfold magLog magVal
  dsimp only
  generalize (x.num.log2 : Int) = a at *
  generalize (x.den.log2 : Int) = b at *
  have hlow : (2 : ℚ) ^ (a - b - 1) ≤ x.num / x.den := by
    rw [show a - b - 1 = a - (b + 1) by ring, zpow_sub₀ two_ne_zero]
    exact div_le_div₀ (by positivity) hnlo hden hdhi.le
  have hhigh : (x.num : ℚ) / x.den < (2 : ℚ) ^ (a - b + 1) := by
    rw [show a - b + 1 = a + 1 - b by ring, zpow_sub₀ two_ne_zero]
    exact div_lt_div₀ hnhi hdlo (by positivity) (by positivity)
  split
  case isTrue h =>
    rw [show a - b + x.exp + 1 = a - b + 1 + x.exp by ring, zpow_add₀ two_ne_zero, zpow_add₀ two_ne_zero (a - b + 1)]
    exact ⟨mul_le_mul_of_nonneg_right (htest.mp h) hscale.le, mul_lt_mul_of_pos_right hhigh hscale⟩
  case isFalse h =>
    rw [show a - b - 1 + x.exp + 1 = a - b + x.exp by ring, zpow_add₀ two_ne_zero, zpow_add₀ two_ne_zero (a - b)]
    exact ⟨mul_le_mul_of_nonneg_right hlow hscale.le, mul_lt_mul_of_pos_right (not_le.mp (mt htest.mpr h)) hscale⟩

theorem magLog_unique {x : Mag} {l : Int} (hd : x.den ≠ 0) (hlo : (2 : ℚ) ^ l ≤ magVal x)
    (hhi : magVal x < (2 : ℚ) ^ (l + 1)) : magLog x = l := by
  have hn : x.num ≠ 0 := by
    intro h
    have hpow : (0 : ℚ) < (2 : ℚ) ^ l := by positivity
    have hzero : magVal x = 0 := by simp [magVal, h]
    linarith
  obtain ⟨hlo', hhi'⟩ := magLog_bounds hn hd
  have hle := (zpow_lt_zpow_iff_right₀ (one_lt_two (α := ℚ))).mp (hlo.trans_lt hhi')
  have hge := (zpow_lt_zpow_iff_right₀ (one_lt_two (α := ℚ))).mp (hlo'.trans_lt hhi)
  omega

/-! ## The exact operations -/

/-- A numerator moved to a lower exponent keeps the value. -/
theorem shiftLeft_toNat_val {n : Nat} {i e : Int} (h : e ≤ i) :
    ((n <<< (i - e).toNat : Nat) : ℚ) * (2 : ℚ) ^ e = n * (2 : ℚ) ^ i := by
  rw [shiftLeft_cast, Int.toNat_of_nonneg (by omega), mul_assoc, ← zpow_add₀ two_ne_zero, sub_add_cancel]

theorem addSigned_den (na : Bool) (a : Mag) (nb : Bool) (b : Mag) : (addSigned na a nb b).2.den = 1 := by
  unfold addSigned
  dsimp only
  split_ifs <;> rfl

theorem addSigned_val {a b : Mag} (ha : a.den = 1) (hb : b.den = 1) (na nb : Bool) :
    signFactor (addSigned na a nb b).1 * magVal (addSigned na a nb b).2 =
      signFactor na * magVal a + signFactor nb * magVal b := by
  have hx := shiftLeft_toNat_val (n := a.num) (min_le_left a.exp b.exp)
  have hy := shiftLeft_toNat_val (n := b.num) (min_le_right a.exp b.exp)
  unfold addSigned magVal
  dsimp only
  simp only [ha, hb, Nat.cast_one, div_one, ← hx, ← hy]
  generalize a.num <<< (a.exp - min a.exp b.exp).toNat = x
  generalize b.num <<< (b.exp - min a.exp b.exp).toNat = y
  split
  case isTrue hsign => subst hsign; push_cast; ring
  case isFalse hsign =>
    obtain rfl : nb = !na := by cases na <;> cases nb <;> simp_all
    rw [signFactor_not]
    split
    case isTrue hle => rw [Nat.cast_sub hle]; ring
    case isFalse hlt => rw [Nat.cast_sub (by omega), signFactor_not]; ring

theorem mulMag_val {a b : Mag} (ha : a.den = 1) (hb : b.den = 1) : magVal (mulMag a b) = magVal a * magVal b := by
  simp only [magVal, mulMag, ha, hb, zpow_add₀ (two_ne_zero (α := ℚ))]
  push_cast
  ring

theorem divMag_val {a b : Mag} (ha : a.den = 1) (hb : b.den = 1) : magVal (divMag a b) = magVal a / magVal b := by
  simp only [magVal, divMag, ha, hb, zpow_sub₀ (two_ne_zero (α := ℚ))]
  push_cast
  rw [div_one, div_one, div_mul_div_comm]

/-! ## Rounding -/

/-- The quotient n / d as its floor and the rest. -/
theorem quotient_add_rest (n : Nat) {d : Nat} (hd : 0 < d) : (n : ℚ) / d = (n / d : Nat) + ((n % d : Nat) : ℚ) / d := by
  have hne : (d : ℚ) ≠ 0 := by exact_mod_cast hd.ne'
  have h : (n : ℚ) = d * (n / d : Nat) + (n % d : Nat) := by exact_mod_cast (Nat.div_add_mod n d).symm
  field_simp
  linarith

/-- Whether the rounding of n / d leaves the floor for the integer above it (spec 11 R80). -/
def roundsAway (rc : Rounding) (neg : Bool) (n d : Nat) : Prop :=
  match rc with
  | .nearest => d < 2 * (n % d) ∨ (2 * (n % d) = d ∧ n / d % 2 = 1)
  | .down => neg = true ∧ n % d ≠ 0
  | .up => neg = false ∧ n % d ≠ 0
  | .chop => False

theorem roundQuot_count_away {rc : Rounding} {neg : Bool} {n d : Nat} (h : roundsAway rc neg n d) :
    (roundQuot rc neg n d).count = n / d + 1 := by
  cases rc <;> simp_all [roundsAway, roundQuot]

theorem roundQuot_count_floor {rc : Rounding} {neg : Bool} {n d : Nat} (h : ¬ roundsAway rc neg n d) :
    (roundQuot rc neg n d).count = n / d := by
  cases rc <;> simp_all [roundsAway, roundQuot]

theorem roundQuot_roundsTo (rc : Rounding) (neg : Bool) (n : Nat) {d : Nat} (hd : 0 < d) :
    RoundsTo rc neg ((n : ℚ) / d) (roundQuot rc neg n d).count := by
  have hdq : (0 : ℚ) < d := by exact_mod_cast hd
  have hv := quotient_add_rest n hd
  have hrest_nonneg : (0 : ℚ) ≤ ((n % d : Nat) : ℚ) / d := by positivity
  have hrest_lt : ((n % d : Nat) : ℚ) / d < 1 := by
    rw [div_lt_one hdq]
    exact_mod_cast Nat.mod_lt n hd
  have hhalf_le : 1 / 2 ≤ ((n % d : Nat) : ℚ) / d ↔ d ≤ 2 * (n % d) := by
    rw [div_le_div_iff₀ two_pos hdq, one_mul, mul_comm]
    exact_mod_cast Iff.rfl
  have hle_half : ((n % d : Nat) : ℚ) / d ≤ 1 / 2 ↔ 2 * (n % d) ≤ d := by
    rw [div_le_div_iff₀ hdq two_pos, one_mul, mul_comm]
    exact_mod_cast Iff.rfl
  have hzero : ((n % d : Nat) : ℚ) / d = 0 ↔ n % d = 0 := by simp [hd.ne']
  generalize ((n % d : Nat) : ℚ) / d = rest at *
  rw [hv]
  by_cases haway : roundsAway rc neg n d
  case pos =>
    have habs : |((n / d : Nat) : ℚ) + rest - (n / d + 1 : Nat)| = 1 - rest := by
      rw [abs_of_nonpos (by push_cast; linarith)]
      push_cast
      ring
    rw [roundQuot_count_away haway]
    unfold RoundsTo
    rw [habs]
    cases rc with
    | nearest =>
      have hge : d ≤ 2 * (n % d) := by rcases haway with h | ⟨h, _⟩ <;> omega
      have hrest := hhalf_le.mpr hge
      refine ⟨by linarith, by linarith, fun heq => ?_⟩
      have hle := hle_half.mp (by linarith)
      rcases haway with h | ⟨_, hodd⟩ <;> omega
    | chop => exact haway.elim
    | down | up =>
      obtain ⟨rfl, hne⟩ := haway
      have : rest ≠ 0 := mt hzero.mp hne
      have : 0 < rest := lt_of_le_of_ne hrest_nonneg this.symm
      refine ⟨by linarith, ?_⟩
      simp only [if_true]
      push_cast
      linarith
  case neg =>
    have habs : |((n / d : Nat) : ℚ) + rest - (n / d : Nat)| = rest := by
      rw [add_sub_cancel_left, abs_of_nonneg hrest_nonneg]
    rw [roundQuot_count_floor haway]
    unfold RoundsTo
    rw [habs]
    refine ⟨hrest_lt, ?_⟩
    cases rc with
    | nearest =>
      obtain ⟨hlt, htie⟩ := not_or.mp haway
      refine ⟨hle_half.mpr (by omega), fun heq => ?_⟩
      have := hhalf_le.mp heq.ge
      have : n / d % 2 ≠ 1 := fun hodd => htie ⟨by omega, hodd⟩
      omega
    | chop => simpa using hrest_nonneg
    | down | up =>
      simp only [roundsAway, not_and, not_not] at haway
      cases neg <;> simp_all

/-- It is marked inexact when the quotient is no integer. -/
theorem roundQuot_inexact (rc : Rounding) (neg : Bool) (n d : Nat) :
    (roundQuot rc neg n d).inexact = true ↔ n % d ≠ 0 := decide_eq_true_iff

theorem roundAt_roundsTo (rc : Rounding) (neg : Bool) {x : Mag} (hd : x.den ≠ 0) (g : Int) :
    RoundsTo rc neg (magVal x / (2 : ℚ) ^ g) (roundAt rc neg x g).count := by
  rw [← scaled_val]
  exact roundQuot_roundsTo rc neg _ (scaled_den_pos hd g)

theorem mod_eq_zero_iff_quotient_integer (n : Nat) {d : Nat} (hd : 0 < d) : n % d = 0 ↔ ∃ k : Nat, (n : ℚ) / d = k := by
  have hne : (d : ℚ) ≠ 0 := by exact_mod_cast hd.ne'
  refine ⟨fun h => ⟨n / d, ?_⟩, fun ⟨k, hk⟩ => ?_⟩
  · rw [quotient_add_rest n hd, h, Nat.cast_zero, zero_div, add_zero]
  · rw [div_eq_iff hne] at hk
    have hn : n = k * d := by exact_mod_cast hk
    rw [hn, Nat.mul_mod_left]

/-- A rounding is the integer itself when the exact quotient is one. -/
theorem count_eq_of_roundsTo {rc : Rounding} {neg : Bool} {k count : Nat} (h : RoundsTo rc neg (k : ℚ) count) :
    count = k := by
  obtain ⟨hlo, hhi⟩ := abs_lt.mp h.1
  have h1 : (count : ℚ) < k + 1 := by linarith
  have h2 : (k : ℚ) < count + 1 := by linarith
  norm_cast at h1 h2
  omega

theorem roundAt_inexact (rc : Rounding) (neg : Bool) {x : Mag} (hd : x.den ≠ 0) (g : Int) :
    (roundAt rc neg x g).inexact = true ↔ magVal x / (2 : ℚ) ^ g ≠ (roundAt rc neg x g).count := by
  have hround := roundAt_roundsTo rc neg hd g
  rw [show (roundAt rc neg x g).inexact = true ↔ (scaled x g).1 % (scaled x g).2 ≠ 0 from roundQuot_inexact ..,
    not_iff_not, mod_eq_zero_iff_quotient_integer _ (scaled_den_pos hd g), scaled_val]
  refine ⟨fun ⟨k, hk⟩ => ?_, fun h => ⟨_, h⟩⟩
  rw [hk] at hround ⊢
  rw [count_eq_of_roundsTo hround]

/-- A multiple of the grid rounds to itself, exactly, in every mode. -/
theorem roundAt_of_multiple (rc : Rounding) (neg : Bool) {x : Mag} {g : Int} {k : Nat} (hd : x.den ≠ 0)
    (h : magVal x = k * (2 : ℚ) ^ g) : roundAt rc neg x g = { count := k, inexact := false } := by
  have hquot : magVal x / (2 : ℚ) ^ g = k := by rw [h, mul_div_cancel_right₀ _ (by positivity)]
  have hround := roundAt_roundsTo rc neg hd g
  rw [hquot] at hround
  have hcount := count_eq_of_roundsTo hround
  have hexact : (roundAt rc neg x g).inexact = false := by
    rw [Bool.eq_false_iff, Ne, roundAt_inexact rc neg hd, hquot, hcount]
    exact not_not.mpr rfl
  change (⟨(roundAt rc neg x g).count, (roundAt rc neg x g).inexact⟩ : Rounded) = _
  rw [hcount, hexact]

/-- Settles O25, from what the rounding of a quotient does above and below its floor. -/
theorem roundingIsCorrect : Obligations.RoundingIsCorrect := by
  intro rc neg x g hd
  obtain ⟨hclose, hmode⟩ := roundAt_roundsTo rc neg hd g
  refine ⟨hclose, roundAt_inexact rc neg hd g, ?_⟩
  cases rc <;> exact hmode

end Sys2Proof.Machine
end

section
/-! PROOFS. An operation whose exact result the destination can represent (spec 41 R192, R193), and an exact
cancellation (spec 11 R86). -/

namespace Sys2Proof.Machine

open Sys2Proof.Config (Mag BinOp UnnormalChoice)

/-! ## The delivery of a representable result -/

theorem two_zpow_nat (k : Nat) : (2 : ℚ) ^ (k : Int) = ((2 ^ k : Nat) : ℚ) := by push_cast; rfl

/-- The binary order of a normal is its unbiased exponent. -/
theorem magLog_of_normal {x : Mag} {r : TempReal} (hd : x.den ≠ 0) (hr : classOf r = .normal)
    (hx : magVal x = magVal (magOf r)) : magLog x = (expField r : Int) - 16383 := by
  obtain ⟨hexp, _, hsig⟩ := classOf_eq_normal_iff.mp hr
  have hscale : (2 : ℚ) ^ ((expField r : Int) - 16383) = (2 ^ 63 : Nat) * (2 : ℚ) ^ (magOf r).exp := by
    rw [magOf_exp hexp.ne', ← two_zpow_nat, ← zpow_add₀ two_ne_zero]
    congr 1
    omega
  have hpos : (0 : ℚ) < (2 : ℚ) ^ (magOf r).exp := by positivity
  apply magLog_unique hd
  · rw [hx, magVal_magOf, hscale]
    exact mul_le_mul_of_nonneg_right (by exact_mod_cast hsig) hpos.le
  · rw [hx, magVal_magOf, zpow_add_one₀ two_ne_zero, hscale, mul_right_comm]
    refine mul_lt_mul_of_pos_right ?_ hpos
    exact_mod_cast sigOf_lt r

/-- A normal whose significand ends in zeros below the precision rounds to the bits above them. -/
theorem roundAt_of_normal (rc : Rounding) (neg : Bool) {x : Mag} {r : TempReal} {p c : Nat} (hd : x.den ≠ 0)
    (hr : classOf r = .normal) (hx : magVal x = magVal (magOf r)) (hp : p ≤ 64) (hc : sigOf r = c * 2 ^ (64 - p)) :
    roundAt rc neg x ((expField r : Int) - 16383 - p + 1) = { count := c, inexact := false } := by
  obtain ⟨hexp, _, _⟩ := classOf_eq_normal_iff.mp hr
  apply roundAt_of_multiple rc neg hd
  rw [hx, magVal_magOf, hc, magOf_exp hexp.ne', Nat.cast_mul, ← two_zpow_nat, mul_assoc, ← zpow_add₀ two_ne_zero]
  congr 2
  omega

/-- The bits of a normal's significand above a precision p are p bits. -/
theorem count_lt_of_normal {r : TempReal} {p c : Nat} (hp : p ≤ 64) (hc : sigOf r = c * 2 ^ (64 - p)) : c < 2 ^ p := by
  have hsig := sigOf_lt r
  rw [hc, show (2 : Nat) ^ 64 = 2 ^ p * 2 ^ (64 - p) by rw [← pow_add, Nat.add_sub_cancel' hp]] at hsig
  exact Nat.lt_of_mul_lt_mul_right hsig

/-- A representable magnitude is delivered as it is: no rounding, no flag. -/
theorem deliver_of_normal (cw : Word) {p : Nat} {x : Mag} {r : TempReal} (hd : x.den ≠ 0) (hr : classOf r = .normal)
    (hx : magVal x = magVal (magOf r)) (hp : p ≤ 64) (hsig : sigOf r % 2 ^ (64 - p) = 0) :
    deliver cw p (signOf r) x = .pure r := by
  obtain ⟨hlow, hhigh, _⟩ := classOf_eq_normal_iff.mp hr
  obtain ⟨c, hc⟩ := Nat.dvd_of_mod_eq_zero hsig
  rw [mul_comm] at hc
  have hcount : c ≠ 1 <<< p := by
    rw [Nat.one_shiftLeft]
    exact (count_lt_of_normal hp hc).ne
  unfold deliver
  dsimp only
  rw [magLog_of_normal hd hr hx, roundAt_of_normal _ _ hd hr hx hp hc, if_neg (by omega), if_neg hcount,
    if_neg (by omega)]
  unfold packNormal
  rw [if_neg hcount, Nat.shiftLeft_eq, ← hc, show ((expField r : Int) - 16383 + 16383).toNat = expField r by omega,
    packReal_fields]
  rfl

theorem precision_le (cw : Word) : precision cw ≤ 64 := by
  unfold precision
  split <;> decide

/-- The delivery of a sign and a magnitude that are together the value of a representable normal. -/
theorem deliver_of_value {cw : Word} {neg : Bool} {x : Mag} {r : TempReal} (hd : x.den ≠ 0) (hr : classOf r = .normal)
    (hsig : sigOf r % 2 ^ (64 - precision cw) = 0) (hx : regVal r = signFactor neg * magVal x) :
    deliver cw (precision cw) neg x = .pure r := by
  obtain ⟨rfl, hmag⟩ := sign_magnitude_unique (magVal_nonneg x) (magVal_magOf_pos hr) (hx.symm.trans (regVal_eq r))
  exact deliver_of_normal cw hd hr hmag (precision_le cw) hsig

/-! ## The operations on normals -/

theorem kindOf_normal {r : TempReal} (h : classOf r = .normal) : kindOf r = .normal := by simp [kindOf, h]

theorem regVal_ne_zero {r : TempReal} (h : classOf r = .normal) : regVal r ≠ 0 :=
  mul_ne_zero (signFactor_ne_zero _) (magVal_magOf_pos h).ne'

/-- What addition of normals delivers: the zero of a cancellation, or the exact sum. -/
theorem addValues_normal {l r : TempReal} (cw : Word) (sr : Bool) (ch : UnnormalChoice) (hl : classOf l = .normal)
    (hr : classOf r = .normal) :
    addValues cw l sr r ch =
      if magZero (addSigned (signOf l) (magOf l) sr (magOf r)).2 then .pure (zeroOf (zeroSumSign cw (signOf l) sr))
      else deliver cw (precision cw) (addSigned (signOf l) (magOf l) sr (magOf r)).1
        (addSigned (signOf l) (magOf l) sr (magOf r)).2 := by
  simp only [addValues, kindOf_normal hl, kindOf_normal hr]

theorem mulValues_normal {l r : TempReal} (cw : Word) (ch : UnnormalChoice) (hl : classOf l = .normal)
    (hr : classOf r = .normal) :
    mulValues cw l r ch = deliver cw (precision cw) (signOf l != signOf r) (mulMag (magOf l) (magOf r)) := by
  simp only [mulValues, kindOf_normal hl, kindOf_normal hr]

theorem divValues_normal {l r : TempReal} (cw : Word) (ch : UnnormalChoice) (hl : classOf l = .normal)
    (hr : classOf r = .normal) :
    divValues cw l r ch = deliver cw (precision cw) (signOf l != signOf r) (divMag (magOf l) (magOf r)) := by
  simp only [divValues, kindOf_normal hl, kindOf_normal hr]

/-- The exact sum is zero in value when the two signed magnitudes are opposite. -/
theorem magZero_addSigned_iff (l r : TempReal) (sr : Bool) :
    magZero (addSigned (signOf l) (magOf l) sr (magOf r)).2 = true ↔
      regVal l + signFactor sr * magVal (magOf r) = 0 := by
  rw [magZero_iff (by simp [addSigned_den]), regVal_eq, ← addSigned_val (magOf_den l) (magOf_den r), mul_eq_zero,
    or_iff_right (signFactor_ne_zero _)]

/-- A representable sum. -/
theorem addValues_exact {cw : Word} {l r v : TempReal} {sr : Bool} (ch : UnnormalChoice) (hl : classOf l = .normal)
    (hr : classOf r = .normal) (hv : classOf v = .normal) (hsig : sigOf v % 2 ^ (64 - precision cw) = 0)
    (h : regVal v = regVal l + signFactor sr * magVal (magOf r)) : addValues cw l sr r ch = .pure v := by
  rw [addValues_normal cw sr ch hl hr, if_neg (by rw [magZero_addSigned_iff, ← h]; exact regVal_ne_zero hv)]
  refine deliver_of_value (by simp [addSigned_den]) hv hsig ?_
  rw [h, addSigned_val (magOf_den l) (magOf_den r), regVal_eq]

/-- A cancellation leaves the zero of the rounding mode. -/
theorem addValues_cancel (cw : Word) {l r : TempReal} {sr : Bool} (ch : UnnormalChoice) (hl : classOf l = .normal)
    (hr : classOf r = .normal) (h : regVal l + signFactor sr * magVal (magOf r) = 0) :
    addValues cw l sr r ch = .pure (zeroOf (decide (rounding cw = .down))) := by
  have hopposite : signFactor (signOf l) * magVal (magOf l) = signFactor (!sr) * magVal (magOf r) := by
    rw [signFactor_not, ← regVal_eq]
    linarith
  obtain ⟨hsign, _⟩ := sign_magnitude_unique (magVal_nonneg _) (magVal_magOf_pos hr) hopposite
  rw [addValues_normal cw sr ch hl hr, if_pos ((magZero_addSigned_iff l r sr).mpr h), zeroSumSign,
    if_neg (by rw [hsign]; cases sr <;> decide)]

theorem binValues_exact {cw : Word} (op : BinOp) {l r v : TempReal} (ch : UnnormalChoice) (hl : classOf l = .normal)
    (hr : classOf r = .normal) (hv : classOf v = .normal) (hsig : sigOf v % 2 ^ (64 - precision cw) = 0)
    (h : regVal v = match op with
      | .add => regVal l + regVal r
      | .sub => regVal l - regVal r
      | .mul => regVal l * regVal r
      | .div => regVal l / regVal r) : binValues cw op l r ch = .pure v := by
  have hden : sigOf r ≠ 0 := by
    obtain ⟨_, _, hint⟩ := classOf_eq_normal_iff.mp hr
    omega
  cases op with
  | add => exact addValues_exact ch hl hr hv hsig h
  | sub =>
    refine addValues_exact ch hl hr hv hsig ?_
    rw [signFactor_not, neg_mul, ← regVal_eq, ← sub_eq_add_neg]
    exact h
  | mul =>
    refine (mulValues_normal cw ch hl hr).trans (deliver_of_value one_ne_zero hv hsig (h.trans ?_))
    rw [mulMag_val (magOf_den l) (magOf_den r), signFactor_bne, regVal_eq, regVal_eq]
    ring
  | div =>
    refine (divValues_normal cw ch hl hr).trans (deliver_of_value hden hv hsig (h.trans ?_))
    rw [divMag_val (magOf_den l) (magOf_den r), signFactor_bne, regVal_eq, regVal_eq, mul_div_mul_comm,
      signFactor_div_self]

/-! ## The checks before the operation (spec 41 R192) -/

@[simp] theorem ofReg_value (r : TempReal) : (ofReg r).value = r := rfl

@[simp] theorem ofReg_denormal (r : TempReal) : (ofReg r).denormal = true ↔ classOf r = .denormal := decide_eq_true_iff

/-- The steps of `arith` after the check for a denormal: the check for a NaN, and the operation. -/
def arithUndenormal (cw : Word) (op : BinOp) (rev : Bool) (a b : TempReal) : Out TempReal :=
  match pickNan a b with
  | some nan => signalBefore cw flagI nan
  | none =>
    if rev then binValues cw op b a (Config.unnormalArith op rev a b cw)
    else binValues cw op a b (Config.unnormalArith op rev a b cw)

theorem arith_eq_andThen (cw : Word) (op : BinOp) (rev : Bool) (dst src : Source) :
    arith cw op rev dst src =
      (if denormalUsed op rev dst src then signalBefore cw flagD () else .pure ()).andThen fun _ =>
        arithUndenormal cw op rev dst.value src.value := rfl

/-- Without a denormal that is used, no check is made before that for a NaN. -/
theorem arith_of_not_denormalUsed {cw : Word} {op : BinOp} {rev : Bool} {dst src : Source}
    (h : denormalUsed op rev dst src = false) :
    arith cw op rev dst src = arithUndenormal cw op rev dst.value src.value := by
  rw [arith_eq_andThen, h, if_neg Bool.false_ne_true, Out.andThen_pure]

/-- A denormal is used unless it is a divisor (spec 41 R192). -/
theorem denormalUsed_iff {op : BinOp} {rev : Bool} {dst src : Source} : denormalUsed op rev dst src = true ↔
    (dst.denormal = true ∧ ¬(op = .div ∧ rev = true)) ∨ (src.denormal = true ∧ ¬(op = .div ∧ rev = false)) := by
  cases op <;> cases rev <;> simp [denormalUsed]

/-- Operands without a NaN go to the operation. -/
theorem arithUndenormal_values (cw : Word) (op : BinOp) (rev : Bool) {a b : TempReal} (ha : classOf a ≠ .nan)
    (hb : classOf b ≠ .nan) : arithUndenormal cw op rev a b =
      if rev then binValues cw op b a (Config.unnormalArith op rev a b cw)
      else binValues cw op a b (Config.unnormalArith op rev a b cw) := by
  simp [arithUndenormal, pickNan, ha, hb]

/-- The classes of operands that pass every check of `arith`. -/
def Passes (r : TempReal) : Prop := classOf r ≠ .denormal ∧ classOf r ≠ .nan

theorem passes_of_normal {r : TempReal} (h : classOf r = .normal) : Passes r := by simp [Passes, h]

/-- Two registers that pass the checks go to the operation. -/
theorem arith_registers (cw : Word) (op : BinOp) (rev : Bool) {a b : TempReal} (ha : Passes a) (hb : Passes b) :
    arith cw op rev (ofReg a) (ofReg b) =
      if rev then binValues cw op b a (Config.unnormalArith op rev a b cw)
      else binValues cw op a b (Config.unnormalArith op rev a b cw) := by
  have hden : denormalUsed op rev (ofReg a) (ofReg b) = false := by
    rw [Bool.eq_false_iff, Ne, denormalUsed_iff]
    simp [ha.1, hb.1]
  exact (arith_of_not_denormalUsed hden).trans (arithUndenormal_values cw op rev ha.2 hb.2)

/-- Settles O23, from the exact value of each operation and its delivery. -/
theorem exactResultsAreDelivered : Obligations.ExactResultsAreDelivered := by
  intro cw op rev a b r _ ha hb hr hsig hvalue
  rw [arith_registers cw op rev (passes_of_normal ha) (passes_of_normal hb)]
  cases rev
  · exact binValues_exact op _ ha hb hr hsig (by cases op <;> exact hvalue)
  · exact binValues_exact op _ hb ha hr hsig (by cases op <;> exact hvalue)

/-- Settles O24: the operands have opposite signs after the sign of the operation, so the zero takes the mode's. -/
theorem exactCancellation : Obligations.ExactCancellation := by
  intro cw a b ha hb
  have harith := fun op => arith_registers cw op false (passes_of_normal ha) (passes_of_normal hb)
  refine ⟨fun h => (harith .sub).trans (addValues_cancel cw _ ha hb ?_),
    fun h => (harith .add).trans (addValues_cancel cw _ ha hb ?_)⟩
  · rw [signFactor_not, neg_mul, ← regVal_eq, h, add_neg_cancel]
  · rw [← regVal_eq, h, neg_add_cancel]

end Sys2Proof.Machine
end

section
/-! PROOFS. NaN and denormal operands (spec 11 R79, 41 R192), and infinities (spec 41 R194, R210, R216). -/

namespace Sys2Proof.Machine

open Sys2Proof.Config (Mag BinOp UnnormalChoice)

/-! ## The masks of I and D (spec 10 R33) -/

theorem masked_twoPow (cw : Word) {k : Nat} (hk : k < 6) : masked cw (BitVec.twoPow 6 k) = cw.getLsbD k := by
  unfold masked masksOf
  rw [BitVec.and_twoPow, BitVec.getLsbD_extractLsb', decide_eq_true hk, Bool.true_and, Nat.zero_add]
  cases cw.getLsbD k
  case true => simp
  case false => interval_cases k <;> decide

@[simp] theorem masked_flagI (cw : Word) : masked cw flagI = cw.getLsbD 0 := masked_twoPow cw (k := 0) (by decide)

@[simp] theorem masked_flagD (cw : Word) : masked cw flagD = cw.getLsbD 1 := masked_twoPow cw (k := 1) (by decide)

/-- An invalid operation, by its mask (spec 60 R353). -/
theorem signalBefore_invalid {α : Type} (cw : Word) (v : α) :
    signalBefore cw flagI v = { flags := flagI, value := if cw.getLsbD 0 then some v else none } := by
  rw [signalBefore, masked_flagI]

/-! ## The operations never signal D -/

/-- A computation that does not signal D. -/
def WithoutD (o : Out TempReal) : Prop := o.flags &&& flagD = 0

@[simp] theorem withoutD_pure (v : TempReal) : WithoutD (.pure v) := by simp [WithoutD, Out.pure]

@[simp] theorem withoutD_invalid (cw : Word) (v : TempReal) : WithoutD (signalBefore cw flagI v) :=
  show flagI &&& flagD = 0 by decide

@[simp] theorem withoutD_zeroDivide (cw : Word) (v : TempReal) : WithoutD (signalBefore cw flagZ v) :=
  show flagZ &&& flagD = 0 by decide

@[simp] theorem withoutD_precision (v : TempReal) : WithoutD (.after flagP v) :=
  show flagP &&& flagD = 0 by decide

/-- A delivery signals no flag below O, so not D. -/
theorem withoutD_of_delivery {o : Out TempReal} (h : o.flags &&& 0b000111#6 = 0) : WithoutD o := by
  rw [WithoutD, show flagD = 0b000111#6 &&& flagD by decide, ← BitVec.and_assoc, h]
  exact BitVec.zero_and

@[simp] theorem withoutD_deliver (cw : Word) (p : Nat) (neg : Bool) (x : Mag) : WithoutD (deliver cw p neg x) :=
  withoutD_of_delivery (deliver_flags ..)

@[simp] theorem withoutD_deliverNormal (cw : Word) (p : Nat) (neg : Bool) (x : Mag) (ch : UnnormalChoice) :
    WithoutD (deliverNormal cw p neg x ch) := withoutD_of_delivery (deliverNormal_flags ..)

@[simp] theorem withoutD_deliverUnnormal (cw : Word) (p : Nat) (neg : Bool) (x : Mag) (ch : UnnormalChoice) :
    WithoutD (deliverUnnormal cw p neg x ch) := withoutD_of_delivery (deliverUnnormal_flags ..)

@[simp] theorem withoutD_deliverUnderflow (cw : Word) (p : Nat) (neg : Bool) (x : Mag) :
    WithoutD (deliverUnderflow cw p neg x) := withoutD_of_delivery (deliverUnderflow_flags ..)

@[simp] theorem withoutD_deliverOverflow (cw : Word) (neg : Bool) (x : Mag) (big : TempReal) :
    WithoutD (deliverOverflow cw neg x big) := withoutD_of_delivery (deliverOverflow_flags ..)

@[simp] theorem withoutD_ite {c : Prop} [Decidable c] {o p : Out TempReal} (ho : WithoutD o) (hp : WithoutD p) :
    WithoutD (if c then o else p) := by split <;> assumption

@[simp] theorem withoutD_deliverPseudoZero (cw : Word) (p : Nat) (neg : Bool) (x : Mag) (ch : UnnormalChoice) :
    WithoutD (deliverPseudoZero cw p neg x ch) := by simp [deliverPseudoZero]

@[simp] theorem withoutD_unnormalUnchanged (cw : Word) (neg : Bool) (r : TempReal) (ch : UnnormalChoice) :
    WithoutD (unnormalUnchanged cw neg r ch) :=
  withoutD_ite (withoutD_deliverUnderflow ..)
    (withoutD_ite (withoutD_ite (withoutD_pure _) (withoutD_deliverUnnormal ..)) (withoutD_pure _))

@[simp] theorem withoutD_addUnnormal (cw : Word) (l : TempReal) (sr : Bool) (r : TempReal) (ch : UnnormalChoice) :
    WithoutD (addUnnormal cw l sr r ch) := by simp [addUnnormal]

theorem withoutD_addValues (cw : Word) (l : TempReal) (sr : Bool) (r : TempReal) (ch : UnnormalChoice) :
    WithoutD (addValues cw l sr r ch) := by
  unfold addValues
  split <;> simp

theorem withoutD_mulValues (cw : Word) (l r : TempReal) (ch : UnnormalChoice) : WithoutD (mulValues cw l r ch) := by
  unfold mulValues
  split <;> simp

theorem withoutD_divValues (cw : Word) (l r : TempReal) (ch : UnnormalChoice) : WithoutD (divValues cw l r ch) := by
  unfold divValues
  split <;> simp

theorem withoutD_binValues (cw : Word) (op : BinOp) (l r : TempReal) (ch : UnnormalChoice) :
    WithoutD (binValues cw op l r ch) := by
  cases op with
  | add => exact withoutD_addValues ..
  | sub => exact withoutD_addValues ..
  | mul => exact withoutD_mulValues ..
  | div => exact withoutD_divValues ..

theorem withoutD_arithUndenormal (cw : Word) (op : BinOp) (rev : Bool) (a b : TempReal) :
    WithoutD (arithUndenormal cw op rev a b) := by
  unfold arithUndenormal
  split
  · exact withoutD_invalid ..
  · exact withoutD_ite (withoutD_binValues ..) (withoutD_binValues ..)

/-! ## NaN and denormal operands -/

/-- The NaN an operation answers, of operands that are not both other than NaNs (spec 11 R79). -/
theorem pickNan_eq_some {x y : TempReal} (h : classOf x = .nan ∨ classOf y = .nan) :
    pickNan x y = some (if classOf x = .nan ∧ (classOf y = .nan → sigOf y ≤ sigOf x) then x else y) := by
  unfold pickNan
  by_cases hx : classOf x = .nan
  case pos =>
    by_cases hy : classOf y = .nan
    · rcases Nat.lt_or_ge (sigOf x) (sigOf y) with hlt | hge
      · simp [hx, hy, hlt, Nat.not_le.mpr hlt]
      · simp [hx, hy, hge, Nat.not_lt.mpr hge]
    · simp [hx, hy]
  case neg => simp [hx, h.resolve_left hx]

theorem arithUndenormal_nan (cw : Word) (op : BinOp) (rev : Bool) {a b : TempReal}
    (h : classOf a = .nan ∨ classOf b = .nan) :
    arithUndenormal cw op rev a b =
      { flags := flagI, value := if cw.getLsbD 0 then some
          (if classOf a = .nan ∧ (classOf b = .nan → sigOf b ≤ sigOf a) then a else b) else none } := by
  unfold arithUndenormal
  rw [pickNan_eq_some h]
  exact signalBefore_invalid ..

/-- An unmasked denormal ends the operation. -/
theorem arith_denormal_unmasked {cw : Word} {op : BinOp} {rev : Bool} {dst src : Source}
    (h : denormalUsed op rev dst src = true) (hmask : cw.getLsbD 1 = false) :
    arith cw op rev dst src = { flags := flagD, value := none } := by
  rw [arith_eq_andThen, if_pos h, signalBefore_unmasked _ (by rwa [masked_flagD])]
  rfl

/-- A masked denormal adds D to what the later steps signal. -/
theorem arith_denormal_masked {cw : Word} {op : BinOp} {rev : Bool} {dst src : Source}
    (h : denormalUsed op rev dst src = true) (hmask : cw.getLsbD 1 = true) :
    arith cw op rev dst src =
      { flags := flagD ||| (arithUndenormal cw op rev dst.value src.value).flags,
        value := (arithUndenormal cw op rev dst.value src.value).value } := by
  rw [arith_eq_andThen, if_pos h, signalBefore_masked _ (by rwa [masked_flagD])]
  rfl

/-- Settles O29, from the check for a denormal and the check for a NaN that follows it. -/
theorem nanOperands : Obligations.NanOperands := by
  intro cw op rev a
  have hused : ∀ src : Source, denormalUsed op rev (ofReg a) src = true ↔
      (classOf a = .denormal ∧ ¬(op = .div ∧ rev = true)) ∨ (src.denormal = true ∧ ¬(op = .div ∧ rev = false)) :=
    fun src => by rw [denormalUsed_iff, ofReg_denormal]
  refine ⟨fun b ha hb hnan => ?_, fun src => ⟨fun hnone => ?_, fun h hmask => ?_, fun h hmask => ?_⟩⟩
  · have hnone : denormalUsed op rev (ofReg a) (ofReg b) = false := by
      rw [Bool.eq_false_iff, Ne, hused, ofReg_denormal]
      tauto
    exact (arith_of_not_denormalUsed hnone).trans (arithUndenormal_nan cw op rev hnan)
  · rw [← hused, Bool.not_eq_true] at hnone
    rw [arith_of_not_denormalUsed hnone]
    exact withoutD_arithUndenormal ..
  · exact arith_denormal_unmasked ((hused src).mpr h) hmask
  · have hmasked := arith_denormal_masked ((hused src).mpr h) hmask
    refine ⟨?_, fun hnan => ?_⟩
    · rw [hmasked]
      ext k hk
      simp +contextual
    · rw [hmasked, ofReg_value, arithUndenormal_nan cw op rev hnan, BitVec.or_comm]

/-! ## Infinities -/

theorem kindOf_zero {r : TempReal} (h : classOf r = .zero) : kindOf r = .zero := by simp [kindOf, h]

theorem kindOf_infinity {r : TempReal} (h : classOf r = .infinity) : kindOf r = .infinity := by simp [kindOf, h]

theorem passes_of_zero {r : TempReal} (h : classOf r = .zero) : Passes r := by simp [Passes, h]

theorem passes_of_infinity {r : TempReal} (h : classOf r = .infinity) : Passes r := by simp [Passes, h]

section
variable (cw : Word) {l r : TempReal} (sr : Bool) (ch : UnnormalChoice)

theorem addValues_infinity_left (hl : kindOf l = .infinity) (hr : kindOf r = .normal ∨ kindOf r = .zero) :
    addValues cw l sr r ch = .pure (infinityOf (signOf l)) := by
  rcases hr with hr | hr <;> simp only [addValues, hl, hr]

theorem addValues_infinity_right (hl : kindOf l = .normal ∨ kindOf l = .zero) (hr : kindOf r = .infinity) :
    addValues cw l sr r ch = .pure (infinityOf sr) := by
  rcases hl with hl | hl <;> simp only [addValues, hl, hr]

/-- Two infinities add under affine closure when their signs agree (spec 41 R194). -/
theorem addValues_infinities (hl : kindOf l = .infinity) (hr : kindOf r = .infinity) :
    addValues cw l sr r ch =
      if cw.getLsbD 12 = true ∧ signOf l = sr then .pure (infinityOf sr) else signalBefore cw flagI indefinite := by
  simp [addValues, hl, hr, affine]

theorem mulValues_infinity (hl : kindOf l = .infinity) (hr : kindOf r = .normal ∨ kindOf r = .infinity) :
    mulValues cw l r ch = .pure (infinityOf (signOf l != signOf r)) := by
  rcases hr with hr | hr <;> simp only [mulValues, hl, hr]

/-- An infinity times a true zero is invalid in either order (spec 41 R210). -/
theorem mulValues_infinity_zero
    (h : (kindOf l = .infinity ∧ kindOf r = .zero) ∨ (kindOf l = .zero ∧ kindOf r = .infinity)) :
    mulValues cw l r ch = signalBefore cw flagI indefinite := by
  rcases h with ⟨hl, hr⟩ | ⟨hl, hr⟩ <;> simp only [mulValues, hl, hr]

theorem divValues_infinity_left (hl : kindOf l = .infinity) (hr : kindOf r = .normal ∨ kindOf r = .zero) :
    divValues cw l r ch = .pure (infinityOf (signOf l != signOf r)) := by
  rcases hr with hr | hr <;> simp only [divValues, hl, hr]

theorem divValues_infinity_right (hl : kindOf l = .normal ∨ kindOf l = .zero) (hr : kindOf r = .infinity) :
    divValues cw l r ch = .pure (zeroOf (signOf l != signOf r)) := by
  rcases hl with hl | hl <;> simp only [divValues, hl, hr]

theorem divValues_infinities (hl : kindOf l = .infinity) (hr : kindOf r = .infinity) :
    divValues cw l r ch = signalBefore cw flagI indefinite := by simp only [divValues, hl, hr]

end

section
variable (cw : Word) {a b : TempReal} (ha : classOf a = .infinity)
include ha

/-- An infinity with a normal or a true zero: sums, differences and quotients (spec 41 R194, R216). -/
theorem infinity_with_finite (hb : classOf b = .normal ∨ classOf b = .zero) :
    arith cw .add false (ofReg a) (ofReg b) = .pure a ∧ arith cw .sub false (ofReg a) (ofReg b) = .pure a ∧
    arith cw .sub true (ofReg a) (ofReg b) = .pure (infinityOf (!signOf a)) ∧
    arith cw .div false (ofReg a) (ofReg b) = .pure (infinityOf (signOf a != signOf b)) ∧
    arith cw .div true (ofReg a) (ofReg b) = .pure (zeroOf (signOf a != signOf b)) := by
  have hpass := fun op rev =>
    arith_registers cw op rev (passes_of_infinity ha) (hb.elim passes_of_normal passes_of_zero)
  have hka := kindOf_infinity ha
  have hkb : kindOf b = .normal ∨ kindOf b = .zero := hb.imp kindOf_normal kindOf_zero
  refine ⟨(hpass .add false).trans ?_, (hpass .sub false).trans ?_,
    (hpass .sub true).trans (addValues_infinity_right cw _ _ hkb hka),
    (hpass .div false).trans (divValues_infinity_left cw _ hka hkb), (hpass .div true).trans ?_⟩
  · exact (addValues_infinity_left cw _ _ hka hkb).trans (by rw [infinityOf_signOf ha])
  · exact (addValues_infinity_left cw _ _ hka hkb).trans (by rw [infinityOf_signOf ha])
  · exact (divValues_infinity_right cw _ hkb hka).trans (by rw [bne_comm])

/-- An infinity times a true zero. -/
theorem infinity_times_zero (hb : classOf b = .zero) (rev : Bool) :
    arith cw .mul rev (ofReg a) (ofReg b) = signalBefore cw flagI indefinite := by
  have hka := kindOf_infinity ha
  have hkb := kindOf_zero hb
  refine (arith_registers cw .mul rev (passes_of_infinity ha) (passes_of_zero hb)).trans ?_
  cases rev
  · exact mulValues_infinity_zero cw _ (.inl ⟨hka, hkb⟩)
  · exact mulValues_infinity_zero cw _ (.inr ⟨hkb, hka⟩)

/-- Two infinities (spec 41 R194, R210, R216). -/
theorem infinity_with_infinity (hb : classOf b = .infinity) :
    arith cw .add false (ofReg a) (ofReg b) =
      (if cw.getLsbD 12 = true ∧ signOf a = signOf b then .pure a else signalBefore cw flagI indefinite) ∧
    arith cw .sub false (ofReg a) (ofReg b) =
      (if cw.getLsbD 12 = true ∧ signOf a ≠ signOf b then .pure a else signalBefore cw flagI indefinite) ∧
    arith cw .sub true (ofReg a) (ofReg b) =
      (if cw.getLsbD 12 = true ∧ signOf a ≠ signOf b then .pure b else signalBefore cw flagI indefinite) ∧
    arith cw .mul false (ofReg a) (ofReg b) = .pure (infinityOf (signOf a != signOf b)) ∧
    arith cw .div false (ofReg a) (ofReg b) = signalBefore cw flagI indefinite := by
  have hpass := fun op rev => arith_registers cw op rev (passes_of_infinity ha) (passes_of_infinity hb)
  have hka := kindOf_infinity ha
  have hkb := kindOf_infinity hb
  refine ⟨(hpass .add false).trans ((addValues_infinities cw _ _ hka hkb).trans ?_),
    (hpass .sub false).trans ((addValues_infinities cw _ _ hka hkb).trans ?_),
    (hpass .sub true).trans ((addValues_infinities cw _ _ hkb hka).trans ?_),
    (hpass .mul false).trans (mulValues_infinity cw _ hka (.inr hkb)),
    (hpass .div false).trans (divValues_infinities cw _ hka hkb)⟩
  · refine if_ctx_congr Iff.rfl (fun ⟨_, h⟩ => ?_) fun _ => rfl
    rw [← h, infinityOf_signOf ha]
  · refine if_ctx_congr (by rw [Bool.eq_not]) (fun ⟨_, h⟩ => ?_) fun _ => rfl
    rw [← Bool.eq_not.mpr h, infinityOf_signOf ha]
  · refine if_ctx_congr (by rw [Bool.eq_not, ne_comm]) (fun ⟨_, h⟩ => ?_) fun _ => rfl
    rw [← Bool.eq_not.mpr h.symm, infinityOf_signOf hb]

end

/-- Settles O30, from an infinity with a finite operand and with an infinity. -/
theorem infinityArithmetic : Obligations.InfinityArithmetic := by
  intro cw a b ha
  rw [← signalBefore_invalid cw indefinite]
  refine ⟨infinity_with_finite cw ha, fun hb => ?_, infinity_times_zero cw ha, infinity_with_infinity cw ha⟩
  exact (arith_registers cw .mul false (passes_of_infinity ha) (passes_of_normal hb)).trans
    (mulValues_infinity cw _ (kindOf_infinity ha) (.inl (kindOf_normal hb)))

end Sys2Proof.Machine
end

section
/-! PROOFS. Short and long reals: the fields of a pattern, the temporary real it loads as (spec 11 R64, R69), and its
store (spec 40 R166, R167). -/

namespace Sys2Proof.Machine

/-! ## Significands of p bits, at the left of the 64 -/

section
variable (neg : Bool) {E c p : Nat}

theorem sig_lt (hp : p ≤ 64) (hc : c < 2 ^ p) : c * 2 ^ (64 - p) < 2 ^ 64 := by
  calc c * 2 ^ (64 - p) < 2 ^ p * 2 ^ (64 - p) := Nat.mul_lt_mul_of_pos_right hc (by positivity)
    _ = 2 ^ 64 := by rw [← pow_add, Nat.add_sub_cancel' hp]

theorem sigOf_packReal_left (E : Nat) (hp : p ≤ 64) (hc : c < 2 ^ p) :
    sigOf (packReal neg E (c * 2 ^ (64 - p))) = c * 2 ^ (64 - p) := by
  rw [sigOf_packReal, Nat.mod_eq_of_lt (sig_lt hp hc)]

/-- The value of a temporary real of exponent field E whose significand is c at the left. -/
theorem regVal_packReal_left (hE : 0 < E) (hE' : E < 2 ^ 15) (hp : p ≤ 64) (hc : c < 2 ^ p) :
    regVal (packReal neg E (c * 2 ^ (64 - p))) = signFactor neg * c * (2 : ℚ) ^ ((E : Int) - 16382 - p) := by
  have hfield : expField (packReal neg E (c * 2 ^ (64 - p))) = E := by rw [expField_packReal, Nat.mod_eq_of_lt hE']
  rw [regVal_eq, signOf_packReal, magVal_magOf, magOf_exp (by omega), hfield, sigOf_packReal_left neg E hp hc,
    Nat.cast_mul, ← two_zpow_nat, mul_assoc (c : ℚ), ← zpow_add₀ two_ne_zero, mul_assoc]
  congr 3
  omega

theorem classOf_packReal_left (hE : 0 < E) (hE' : E < 0x7FFF) (hp : p ≤ 64) (hp' : 0 < p)
    (hc : c < 2 ^ p) (hint : 2 ^ (p - 1) ≤ c) : classOf (packReal neg E (c * 2 ^ (64 - p))) = .normal := by
  rw [classOf_eq_normal_iff, expField_packReal, Nat.mod_eq_of_lt (by omega), sigOf_packReal_left neg E hp hc]
  refine ⟨hE, hE', ?_⟩
  calc (2 : Nat) ^ 63 = 2 ^ (p - 1) * 2 ^ (64 - p) := by rw [← pow_add, show p - 1 + (64 - p) = 63 by omega]
    _ ≤ c * 2 ^ (64 - p) := Nat.mul_le_mul_right _ hint

end

/-! ## The formats -/

/-- What the round trip needs of a format: it is no wider than temporary real in significand and exponent, and its bias
is the middle of its exponent fields (spec 11 R63). -/
structure RealFormat.Narrow (f : RealFormat) : Prop where
  prec_pos : 0 < f.prec
  prec_le : f.prec ≤ 64
  maxField_eq : f.maxField = 2 * f.bias + 1
  bias_pos : 0 < f.bias
  bias_le : f.bias ≤ 16383
  bits : 8 * f.bytes = f.prec - 1 + f.ebits + 1

theorem narrow_of_memory {f : RealFormat} (h : f = shortReal ∨ f = longReal) : f.Narrow := by
  rcases h with rfl | rfl <;> constructor <;> decide

theorem RealFormat.maxField_add_one (f : RealFormat) : f.maxField + 1 = 2 ^ f.ebits := by
  rw [maxField, Nat.one_shiftLeft, Nat.sub_add_cancel Nat.one_le_two_pow]

/-! ## The fields of a pattern (spec 11 R63) -/

theorem packMem_eq (f : RealFormat) (neg : Bool) (e frac : Nat) :
    packMem f neg e frac = (neg.toNat * 2 ^ f.ebits + e) * 2 ^ (f.prec - 1) + frac := by
  cases neg <;> simp [packMem, Nat.shiftLeft_eq]

section
variable {f : RealFormat} {neg : Bool} {e frac : Nat}

theorem packMem_frac (hfrac : frac < 2 ^ (f.prec - 1)) : packMem f neg e frac % 2 ^ (f.prec - 1) = frac := by
  rw [packMem_eq, Nat.mul_add_mod_self_right, Nat.mod_eq_of_lt hfrac]

theorem packMem_above_frac (hfrac : frac < 2 ^ (f.prec - 1)) :
    packMem f neg e frac / 2 ^ (f.prec - 1) = neg.toNat * 2 ^ f.ebits + e := by
  rw [packMem_eq, Nat.mul_comm, Nat.mul_add_div (by positivity), Nat.div_eq_of_lt hfrac, Nat.add_zero]

theorem packMem_exp (he : e < 2 ^ f.ebits) (hfrac : frac < 2 ^ (f.prec - 1)) :
    packMem f neg e frac / 2 ^ (f.prec - 1) % 2 ^ f.ebits = e := by
  rw [packMem_above_frac hfrac, Nat.mul_add_mod_self_right, Nat.mod_eq_of_lt he]

theorem packMem_sign (he : e < 2 ^ f.ebits) (hfrac : frac < 2 ^ (f.prec - 1)) :
    packMem f neg e frac / 2 ^ (f.prec - 1 + f.ebits) = neg.toNat := by
  rw [pow_add, ← Nat.div_div_eq_div_mul, packMem_above_frac hfrac, Nat.mul_comm, Nat.mul_add_div (by positivity),
    Nat.div_eq_of_lt he, Nat.add_zero]

/-- Every pattern is packed from its fields. -/
theorem exists_packMem (hf : f.Narrow) {v : Nat} (hv : v < 2 ^ (8 * f.bytes)) :
    ∃ neg e frac, e < 2 ^ f.ebits ∧ frac < 2 ^ (f.prec - 1) ∧ v = packMem f neg e frac := by
  have hsign : v / 2 ^ (f.prec - 1) / 2 ^ f.ebits < 2 := by
    rw [Nat.div_div_eq_div_mul, ← pow_add]
    apply Nat.div_lt_of_lt_mul
    rwa [← pow_succ, ← hf.bits]
  have hneg : (decide (v / 2 ^ (f.prec - 1) / 2 ^ f.ebits = 1)).toNat = v / 2 ^ (f.prec - 1) / 2 ^ f.ebits := by
    interval_cases v / 2 ^ (f.prec - 1) / 2 ^ f.ebits <;> rfl
  refine ⟨decide (v / 2 ^ (f.prec - 1) / 2 ^ f.ebits = 1), v / 2 ^ (f.prec - 1) % 2 ^ f.ebits,
    v % 2 ^ (f.prec - 1), Nat.mod_lt _ (by positivity), Nat.mod_lt _ (by positivity), ?_⟩
  rw [packMem_eq, hneg, Nat.div_add_mod', Nat.div_add_mod']

/-! ## Loading -/

/-- A temporary real with integer bit 1 and, after it, a fraction of the format. -/
def widened (f : RealFormat) (neg : Bool) (E frac : Nat) : TempReal :=
  packReal neg E ((2 ^ (f.prec - 1) + frac) * 2 ^ (64 - f.prec))

/-- What a pattern loads as, by its fields (spec 11 R64, R69). -/
theorem loadReal_packMem (hf : f.Narrow) (he : e < 2 ^ f.ebits) (hfrac : frac < 2 ^ (f.prec - 1)) :
    loadReal f (packMem f neg e frac) =
      if e = 0 then
        if frac = 0 then { value := zeroOf neg, denormal := false }
        else { value := packReal neg (16384 - f.bias) (frac * 2 ^ (64 - f.prec)), denormal := true }
      else if e = f.maxField then { value := widened f neg 0x7FFF frac, denormal := false }
      else { value := widened f neg (e + 16383 - f.bias) frac, denormal := false } := by
  have hpos := hf.prec_pos
  have hle := hf.prec_le
  have hwidth : 63 - (f.prec - 1) = 64 - f.prec := by omega
  have hint : 0x8000000000000000 + frac * 2 ^ (64 - f.prec) = (2 ^ (f.prec - 1) + frac) * 2 ^ (64 - f.prec) := by
    rw [add_mul, ← pow_add, show f.prec - 1 + (64 - f.prec) = 63 by omega]
    rfl
  have hsign : decide (neg.toNat % 2 = 1) = neg := by cases neg <;> rfl
  have hzero : frac * 2 ^ (64 - f.prec) = 0 ↔ frac = 0 := by simp
  unfold loadReal widened
  dsimp only
  rw [Nat.one_shiftLeft, Nat.one_shiftLeft, Nat.shiftRight_eq_div_pow, Nat.shiftRight_eq_div_pow, packMem_frac hfrac,
    packMem_exp he hfrac, packMem_sign he hfrac, Nat.shiftLeft_eq, hwidth, hsign, hint]
  simp only [hzero]

@[simp] theorem signOf_widened (f : RealFormat) (neg : Bool) (E frac : Nat) : signOf (widened f neg E frac) = neg :=
  signOf_packReal ..

theorem expField_widened {E : Nat} (hE : E < 2 ^ 15) : expField (widened f neg E frac) = E :=
  (expField_packReal ..).trans (Nat.mod_eq_of_lt hE)

section
variable (hf : f.Narrow) (hfrac : frac < 2 ^ (f.prec - 1))
include hf hfrac

theorem widened_count_lt : 2 ^ (f.prec - 1) + frac < 2 ^ f.prec := by
  have := Nat.two_pow_pred_add_two_pow_pred hf.prec_pos
  omega

theorem sigOf_widened (E : Nat) : sigOf (widened f neg E frac) = (2 ^ (f.prec - 1) + frac) * 2 ^ (64 - f.prec) :=
  sigOf_packReal_left neg E hf.prec_le (widened_count_lt hf hfrac)

/-- The integer bit of the significand, and the fraction below it. -/
theorem sigOf_widened_eq_add (E : Nat) : sigOf (widened f neg E frac) = 2 ^ 63 + frac * 2 ^ (64 - f.prec) := by
  have := hf.prec_pos
  have := hf.prec_le
  rw [sigOf_widened hf hfrac, add_mul, ← pow_add, show f.prec - 1 + (64 - f.prec) = 63 by omega]

theorem classOf_widened_normal {E : Nat} (hE : 0 < E) (hE' : E < 0x7FFF) :
    classOf (widened f neg E frac) = .normal :=
  classOf_packReal_left neg hE hE' hf.prec_le hf.prec_pos (widened_count_lt hf hfrac) (Nat.le_add_right ..)

/-- The largest exponent field is an infinity or a NaN (spec 11 R67). -/
theorem classOf_widened_special :
    classOf (widened f neg 0x7FFF frac) = if frac = 0 then .infinity else .nan := by
  have hexp := expField_widened (f := f) (neg := neg) (frac := frac) (E := 0x7FFF) (by decide)
  have hsig := sigOf_widened_eq_add (neg := neg) hf hfrac 0x7FFF
  split
  case isTrue h => exact classOf_eq_infinity_iff.mpr ⟨hexp, by rw [hsig, h, Nat.zero_mul, Nat.add_zero]⟩
  case isFalse h => exact classOf_eq_nan_iff.mpr ⟨hexp, by rw [hsig]; simpa using h⟩

theorem regVal_widened {E : Nat} (hE : 0 < E) (hE' : E < 2 ^ 15) :
    regVal (widened f neg E frac) =
      signFactor neg * (2 ^ (f.prec - 1) + frac) * (2 : ℚ) ^ ((E : Int) - 16382 - f.prec) := by
  rw [widened, regVal_packReal_left neg hE hE' hf.prec_le (widened_count_lt hf hfrac)]
  push_cast
  rfl

/-- A fraction with no exponent field has the scale of field 1, and no integer bit (spec 11 R64). -/
theorem regVal_fraction :
    regVal (packReal neg (16384 - f.bias) (frac * 2 ^ (64 - f.prec))) =
      signFactor neg * frac * (2 : ℚ) ^ (1 - (f.bias : Int) - (f.prec - 1 : Nat)) := by
  have hpos := hf.prec_pos
  have hbias := hf.bias_le
  have hbias_pos := hf.bias_pos
  have hlt : frac < 2 ^ f.prec := hfrac.trans_le (Nat.pow_le_pow_right two_pos (by omega))
  rw [regVal_packReal_left neg (by omega) (by omega) hf.prec_le hlt]
  congr 2
  omega

/-! ## Storing what was loaded -/

/-- The exponent field of a loaded normal is again that of the pattern, and its significand needs no rounding. -/
theorem storeReal_widened_normal (cw : Word) (he : 0 < e) (he' : e < f.maxField) :
    storeReal cw f (widened f neg (e + 16383 - f.bias) frac) = .pure (packMem f neg e frac) := by
  have hbias := hf.bias_le
  have hmax := hf.maxField_eq
  have hclass := classOf_widened_normal (neg := neg) hf hfrac (E := e + 16383 - f.bias) (by omega) (by omega)
  have hexp := expField_widened (f := f) (neg := neg) (frac := frac) (E := e + 16383 - f.bias) (by omega)
  have hunbiased : (expField (widened f neg (e + 16383 - f.bias) frac) : Int) - 16383 = e - f.bias := by omega
  have hlog := magLog_of_normal one_ne_zero hclass rfl
  have hround := roundAt_of_normal (rounding cw) neg one_ne_zero hclass rfl hf.prec_le (sigOf_widened hf hfrac _)
  have hcount := (widened_count_lt hf hfrac).ne
  rw [hunbiased] at hlog hround
  unfold storeReal
  simp only [hclass, signOf_widened]
  unfold storeNormal
  simp only [hlog, hround, Nat.one_shiftLeft]
  rw [if_neg (by omega), if_neg hcount, if_neg (by omega), if_neg hcount, Nat.add_sub_cancel_left,
    show ((e : Int) - f.bias + f.bias).toNat = e by omega]
  rfl

theorem storeReal_widened_special (cw : Word) :
    storeReal cw f (widened f neg 0x7FFF frac) = .pure (packMem f neg f.maxField frac) := by
  have hchopped : (sigOf (widened f neg 0x7FFF frac) % 0x8000000000000000) >>> (64 - f.prec) = frac := by
    have hlt : frac * 2 ^ (64 - f.prec) < 2 ^ 63 := by
      have := hf.prec_pos
      have := hf.prec_le
      calc frac * 2 ^ (64 - f.prec) < 2 ^ (f.prec - 1) * 2 ^ (64 - f.prec) :=
            Nat.mul_lt_mul_of_pos_right hfrac (by positivity)
        _ = 2 ^ 63 := by rw [← pow_add, show f.prec - 1 + (64 - f.prec) = 63 by omega]
    rw [sigOf_widened_eq_add hf hfrac, show (0x8000000000000000 : Nat) = 2 ^ 63 from rfl, Nat.add_mod_left,
      Nat.mod_eq_of_lt hlt, Nat.shiftRight_eq_div_pow, Nat.mul_div_cancel _ (by positivity)]
  unfold storeReal
  rw [classOf_widened_special hf hfrac]
  simp only [signOf_widened, hchopped]
  split_ifs <;> rfl

end

theorem storeReal_zero (cw : Word) (f : RealFormat) (neg : Bool) :
    storeReal cw f (zeroOf neg) = .pure (packMem f neg 0 0) := by
  have hclass : classOf (zeroOf neg) = .zero := classOf_eq_zero_iff.mpr (by simp [zeroOf])
  unfold storeReal
  simp only [hclass]
  rw [zeroOf, signOf_packReal]

end

/-- The sign of a pattern as a factor. -/
theorem signFactor_eq (neg : Bool) : (if neg.toNat = 1 then -1 else 1 : ℚ) = signFactor neg := by cases neg <;> rfl

/-- Settles O49, by the exponent field of the pattern: zero, a fraction, a special field or a normal. -/
theorem realFormatRoundTrip : Obligations.RealFormatRoundTrip := by
  intro cw f v hformat hv
  have hf := narrow_of_memory hformat
  obtain ⟨neg, e, frac, he, hfrac, rfl⟩ := exists_packMem hf hv
  have hmax := f.maxField_add_one
  have hbias := hf.maxField_eq
  have hbias_le := hf.bias_le
  have hprec := hf.prec_pos
  have hload := loadReal_packMem (neg := neg) hf he hfrac
  dsimp only
  rw [packMem_frac hfrac, packMem_exp he hfrac, packMem_sign he hfrac, signFactor_eq, Bool.toNat_eq_one]
  by_cases hzero : e = 0
  case pos =>
    subst hzero
    have hnot : (0 : Nat) ≠ 2 ^ f.ebits - 1 := by omega
    by_cases hfraction : frac = 0
    case pos =>
      subst hfraction
      rw [if_pos rfl, if_pos rfl] at hload
      rw [hload]
      refine ⟨by simp, by simp [zeroOf], fun _ => ?_, fun h => absurd rfl h, fun h => absurd h hnot,
        fun _ => storeReal_zero cw f neg⟩
      simp [regVal_eq, magVal, zeroOf]
    case neg =>
      rw [if_pos rfl, if_neg hfraction] at hload
      rw [hload]
      exact ⟨by simp [hfraction], by simp, fun _ => regVal_fraction hf hfrac, fun h => absurd rfl h,
        fun h => absurd h hnot, fun h => absurd h (by simp)⟩
  case neg =>
    by_cases hspecial : e = f.maxField
    case pos =>
      rw [if_neg hzero, if_pos hspecial] at hload
      rw [hload]
      refine ⟨by simp [hzero], by simp, fun h => absurd h hzero, fun _ h => absurd (by omega) h,
        fun _ => ⟨classOf_widened_special hf hfrac, ?_⟩, fun _ => ?_⟩
      · rw [sigOf_widened_eq_add hf hfrac, show 63 - (f.prec - 1) = 64 - f.prec by omega]
      · rw [hspecial]
        exact storeReal_widened_special hf hfrac cw
    case neg =>
      rw [if_neg hzero, if_neg hspecial] at hload
      rw [hload]
      refine ⟨by simp [hzero], by simp, fun h => absurd h hzero,
        fun _ _ => ⟨classOf_widened_normal hf hfrac (by omega) (by omega), ?_⟩, fun h => absurd h (by omega),
        fun _ => storeReal_widened_normal hf hfrac cw (by omega) (by omega)⟩
      rw [regVal_widened hf hfrac (by omega) (by omega)]
      congr 2
      omega

end Sys2Proof.Machine
end

section
/-! PROOFS. Binary integers and packed decimals: the temporary real of an integer (spec 11 R70), and what is stored of
it (spec 40 R176, R180). -/

namespace Sys2Proof.Machine

/-! ## The temporary real of an integer -/

section
variable (neg : Bool) {n : Nat} (hn : n ≠ 0) (hlt : n < 2 ^ 64)
include hn hlt

/-- It is packed with the integer at the left of the significand. -/
theorem ofSignedNat_eq :
    ofSignedNat neg n = packReal neg (n.log2 + 16383) (n * 2 ^ (64 - (n.log2 + 1))) := by
  have := (Nat.log2_lt hn).mpr hlt
  rw [ofSignedNat, if_neg hn, Nat.shiftLeft_eq, show 63 - n.log2 = 64 - (n.log2 + 1) by omega]

theorem signOf_ofSignedNat : signOf (ofSignedNat neg n) = neg := by
  rw [ofSignedNat_eq neg hn hlt, signOf_packReal]

theorem classOf_ofSignedNat : classOf (ofSignedNat neg n) = .normal := by
  have := (Nat.log2_lt hn).mpr hlt
  rw [ofSignedNat_eq neg hn hlt]
  exact classOf_packReal_left neg (by omega) (by omega) (by omega) (by omega) Nat.lt_log2_self (Nat.log2_self_le hn)

theorem regVal_ofSignedNat_pos : regVal (ofSignedNat neg n) = signFactor neg * n := by
  have := (Nat.log2_lt hn).mpr hlt
  rw [ofSignedNat_eq neg hn hlt, regVal_packReal_left neg (by omega) (by omega) (by omega) Nat.lt_log2_self,
    show ((n.log2 + 16383 : Nat) : Int) - 16382 - (n.log2 + 1 : Nat) = 0 by omega, zpow_zero, mul_one]

theorem magVal_ofSignedNat : magVal (magOf (ofSignedNat neg n)) = n := by
  have h := regVal_ofSignedNat_pos neg hn hlt
  rw [regVal_eq, signOf_ofSignedNat neg hn hlt] at h
  exact mul_left_cancel₀ (signFactor_ne_zero neg) h

end

theorem regVal_ofSignedNat (neg : Bool) {n : Nat} (hlt : n < 2 ^ 64) :
    regVal (ofSignedNat neg n) = signFactor neg * n := by
  by_cases hn : n = 0
  · subst hn
    simp [ofSignedNat, zeroOf, regVal_eq, magVal]
  · exact regVal_ofSignedNat_pos neg hn hlt

theorem regVal_ofInt {z : Int} (h : z.natAbs < 2 ^ 64) : regVal (ofInt z) = z := by
  rw [ofInt, regVal_ofSignedNat _ h, Nat.cast_natAbs]
  rcases lt_or_ge z 0 with hneg | hpos
  · simp [signFactor, hneg, abs_of_neg]
  · simp [signFactor, not_lt.mpr hpos, abs_of_nonneg hpos]

/-! ## Binary integers -/

/-- An integer in the range of its width is stored in two's complement, with no rounding. -/
theorem storeInt_ofSignedNat (cw : Word) {w : Nat} (neg : Bool) {n : Nat} (hn : n ≠ 0) (hlt : n < 2 ^ 64)
    (hrange : n < 2 ^ (w - 1) + neg.toNat) :
    storeInt cw w (ofSignedNat neg n) = .pure (if neg then (2 ^ w - n) % 2 ^ w else n) := by
  have hround : roundAt (rounding cw) neg (magOf (ofSignedNat neg n)) 0 = { count := n, inexact := false } :=
    roundAt_of_multiple _ _ one_ne_zero (by rw [magVal_ofSignedNat neg hn hlt, zpow_zero, mul_one])
  have htest : n < 2 ^ (w - 1) + (if neg then 1 else 0) := by cases neg <;> exact hrange
  unfold storeInt
  simp only [classOf_ofSignedNat neg hn hlt, signOf_ofSignedNat neg hn hlt, hround, Nat.one_shiftLeft, htest, if_true]
  rfl

theorem storeInt_zero (cw : Word) (w : Nat) : storeInt cw w (zeroOf false) = .pure 0 := by
  have hclass : classOf (zeroOf false) = .zero := classOf_eq_zero_iff.mpr (by simp [zeroOf])
  simp only [storeInt, hclass]

/-- The two ranges of a two's complement number (spec 11 R61). -/
theorem intOf_cases {w v : Nat} (hw : 0 < w) (hv : v < 2 ^ w) :
    (v < 2 ^ (w - 1) ∧ intOf w v = v) ∨
    ((2 ^ w - v ≠ 0 ∧ 2 ^ w - v ≤ 2 ^ (w - 1)) ∧ intOf w v = -((2 ^ w - v : Nat) : Int)) := by
  have := Nat.two_pow_pred_add_two_pow_pred hw
  unfold intOf
  rw [Nat.one_shiftLeft, Nat.one_shiftLeft]
  split <;> omega

theorem ofInt_natCast (n : Nat) : ofInt n = ofSignedNat false n := by
  rw [ofInt, decide_eq_false (by omega), Int.natAbs_natCast]

theorem ofInt_neg {n : Nat} (hn : n ≠ 0) : ofInt (-(n : Int)) = ofSignedNat true n := by
  simp [ofInt, Nat.pos_of_ne_zero hn]

theorem storeInt_ofInt (cw : Word) {w v : Nat} (hw : 0 < w) (hw' : w ≤ 64) (hv : v < 2 ^ w) :
    storeInt cw w (ofInt (intOf w v)) = .pure v := by
  have hbound : 2 ^ (w - 1) < 2 ^ 64 := Nat.pow_lt_pow_right (by decide) (by omega)
  rcases intOf_cases hw hv with ⟨hlt, hint⟩ | ⟨⟨hne, hle⟩, hint⟩
  case inl =>
    rw [hint, ofInt_natCast]
    by_cases hzero : v = 0
    · subst hzero
      exact storeInt_zero cw w
    · exact storeInt_ofSignedNat cw false hzero (by omega) hlt
  case inr =>
    have hv0 : 0 < v := by
      have := Nat.two_pow_pred_lt_two_pow hw
      omega
    rw [hint, ofInt_neg hne, storeInt_ofSignedNat cw true hne (by omega) (Nat.lt_succ_of_le hle), if_pos rfl,
      Nat.sub_sub_self hv.le, Nat.mod_eq_of_lt hv]

theorem natAbs_intOf_lt {w v : Nat} (hw : 0 < w) (hw' : w ≤ 64) (hv : v < 2 ^ w) : (intOf w v).natAbs < 2 ^ 64 := by
  have hbound : 2 ^ (w - 1) < 2 ^ 64 := Nat.pow_lt_pow_right (by decide) (by omega)
  rcases intOf_cases hw hv with ⟨hlt, hint⟩ | ⟨⟨_, hle⟩, hint⟩ <;> omega

/-- Settles O50, from the two ranges of a two's complement number. -/
theorem integerRoundTrip : Obligations.IntegerRoundTrip := by
  intro cw w v hwidth hv
  have hw : 0 < w ∧ w ≤ 64 := by omega
  exact ⟨storeInt_ofInt cw hw.1 hw.2 hv, regVal_ofInt (natAbs_intOf_lt hw.1 hw.2 hv)⟩

/-! ## Packed decimals -/

theorem ofDigits_lt {k v : Nat} (h : digitsValid k v = true) : ofDigits k v < 10 ^ k := by
  induction k generalizing v with
  | zero => exact Nat.one_pos
  | succ k ih =>
    obtain ⟨hdigit, hrest⟩ := Bool.and_eq_true_iff.mp h
    have hdigit := of_decide_eq_true hdigit
    have := ih hrest
    rw [ofDigits, pow_succ]
    omega

theorem toDigits_zero (k : Nat) : toDigits k 0 = 0 := by
  induction k with
  | zero => rfl
  | succ k ih => rw [toDigits, Nat.zero_div, ih]

/-- Valid digits are the digits of their value. -/
theorem toDigits_ofDigits {k v : Nat} (h : digitsValid k v = true) : toDigits k (ofDigits k v) = v % 16 ^ k := by
  induction k generalizing v with
  | zero => exact (Nat.mod_one v).symm
  | succ k ih =>
    obtain ⟨hdigit, hrest⟩ := Bool.and_eq_true_iff.mp h
    have hdigit := of_decide_eq_true hdigit
    have hlow : (v % 16 + 10 * ofDigits k (v / 16)) % 10 = v % 16 := by omega
    have hhigh : (v % 16 + 10 * ofDigits k (v / 16)) / 10 = ofDigits k (v / 16) := by omega
    rw [toDigits, ofDigits, hlow, hhigh, ih hrest, Nat.pow_succ', Nat.mod_mul]

/-- Rounding half away from zero keeps a whole quotient. -/
theorem half_away_of_multiple (n : Nat) {d : Nat} (hd : 0 < d) : (2 * (n * d) + d) / (2 * d) = n := by
  rw [show 2 * (n * d) + d = d + 2 * d * n by ring, Nat.add_mul_div_left _ _ (by omega), Nat.div_eq_of_lt (by omega),
    Nat.zero_add]

/-- An integer of at most 18 digits is stored with its sign, in digits. -/
theorem storeDecimal_ofSignedNat (cw : Word) (draw : Nat) (neg : Bool) {n : Nat} (hn : n ≠ 0) (hrange : n < 10 ^ 18) :
    storeDecimal cw draw (ofSignedNat neg n) = .pure (neg.toNat * 2 ^ 79 + toDigits 18 n) := by
  have hlt : n < 2 ^ 64 := hrange.trans (by norm_num)
  have hden : 0 < (scaled (magOf (ofSignedNat neg n)) 0).2 := scaled_den_pos one_ne_zero 0
  have hquot : (scaled (magOf (ofSignedNat neg n)) 0).1 = n * (scaled (magOf (ofSignedNat neg n)) 0).2 := by
    have h := scaled_val (magOf (ofSignedNat neg n)) 0
    rw [magVal_ofSignedNat neg hn hlt, zpow_zero, div_one, div_eq_iff (by exact_mod_cast hden.ne')] at h
    exact_mod_cast h
  have hsign : (if neg then 1 <<< 79 else 0) = neg.toNat * 2 ^ 79 := by cases neg <;> rfl
  unfold storeDecimal
  simp only [classOf_ofSignedNat neg hn hlt, signOf_ofSignedNat neg hn hlt, hquot, half_away_of_multiple n hden, hsign]
  rw [if_pos (by omega)]

theorem storeDecimal_zero (cw : Word) (draw : Nat) (neg : Bool) :
    storeDecimal cw draw (zeroOf neg) = .pure (neg.toNat * 2 ^ 79) := by
  have hclass : classOf (zeroOf neg) = .zero := classOf_eq_zero_iff.mpr (by simp [zeroOf])
  have hsign : (if neg then 1 <<< 79 else 0) = neg.toNat * 2 ^ 79 := by cases neg <;> rfl
  simp only [storeDecimal, hclass]
  rw [zeroOf, signOf_packReal, hsign]

/-- A pattern is its sign and its eighteen digits (spec 11 R62). -/
theorem decimal_fields {v : Nat} (hv : v < 2 ^ 80) (hzeros : v / 2 ^ 72 % 128 = 0) :
    (decide (v >>> 79 % 2 = 1)).toNat * 2 ^ 79 + v % 16 ^ 18 = v := by
  have hsign : (decide (v >>> 79 % 2 = 1)).toNat = v / 2 ^ 79 := by
    rw [Nat.shiftRight_eq_div_pow]
    have : v / 2 ^ 79 < 2 := by omega
    interval_cases v / 2 ^ 79 <;> rfl
  rw [hsign]
  omega

/-- Settles O51: the digits are those of the value, and the sign is kept for zero too. -/
theorem decimalRoundTrip : Obligations.DecimalRoundTrip := by
  intro cw draw v hv hvalid hzeros
  have hdigits := toDigits_ofDigits hvalid
  have hfields := decimal_fields hv hzeros
  rw [← hdigits] at hfields
  unfold loadDecimal
  dsimp only
  rw [if_pos hvalid]
  split
  case isTrue hzero =>
    rw [storeDecimal_zero]
    rw [hzero, toDigits_zero, Nat.add_zero] at hfields
    exact congrArg Out.pure hfields
  case isFalse hne =>
    rw [storeDecimal_ofSignedNat cw draw _ hne (ofDigits_lt hvalid), hfields]
    rfl

end Sys2Proof.Machine
end

section
/-! PROOFS. Memory operands that do not fit their segment (spec 20 R112): interrupt 13 when the first word lies outside
(spec 60 R394), interrupt 9 when a later one does (spec 60 R393). -/

namespace Sys2Proof.Machine

open Sys2Proof.Safety

/-! ## The words of an operand inside its segment -/

/-- How many words of an instruction's memory operand lie inside its segment. -/
abbrev State.operandWordsInside (s : State) (i : Instr) (m : MemArg) (words : Nat) (write : Bool) : Nat :=
  (s.operandSegment i m).wordsInside (s.operandOffset m) words write

/-- The first word of an operand lies inside its segment, and a later one outside (spec 60 R393). -/
structure Overruns (s : State) (i : Instr) (m : MemArg) (words : Nat) (write : Bool) : Prop where
  first : 0 < s.operandWordsInside i m words write
  notAll : s.operandWordsInside i m words write < words

section
variable {i : Instr} {m : MemArg} {words : Nat} {write : Bool} {run : Nat → State → Outcome} {s : State}

theorem checkOperand_outside (h : s.operandWordsInside i m words write = 0) :
    checkOperand i m words write run s = .next (takeInterrupt .protection s) := if_pos h

theorem checkOperand_inside (h : 0 < s.operandWordsInside i m words write) :
    checkOperand i m words write run s = run (s.operandWordsInside i m words write) s := if_neg h.ne'

end

theorem usingPrecision_allowed {pc : Bool} {run : State → Outcome} {s : State}
    (h : pc = true → precisionReserved s.npx.cw = false) : usingPrecision pc run s = run s := by
  cases pc with
  | false => rfl
  | true => simp [usingPrecision, h rfl]

/-! ## The shapes of instructions with a memory operand -/

/-- What an instruction that moves `words` words of memory answers: one of the five shapes with a memory operand. -/
inductive MemoryShape (i : Instr) (m : MemArg) (s : State) : Nat → Bool → Outcome → Prop
  | load {pc : Bool} {words : Nat} {dest : Option RegNum} {f : List Byte → Npx → Npx} (hpc : pc = usesPrecision i) :
      MemoryShape i m s words false (neuLoad pc i m words dest f s)
  | store {words pops : Nat} {value : Npx → Out Nat} : MemoryShape i m s words true (neuStore i m words pops value s)
  | controlLoad {words : Nat} {f : Npx → List Byte → Npx} (hi : isControl i = true) :
      MemoryShape i m s words false (loadControl i m words f s)
  | controlStore {value : State → Word} : MemoryShape i m s 1 true (storeControl i m value s)
  | image {words : Nat} {image : State → List Byte} {after : Npx → Npx} :
      MemoryShape i m s words true (storeImage i m words image after s)

/-- Every memory instruction has one of the five shapes, with the words that `transfer` gives (spec 20 R104). -/
theorem exec_memoryShape {i : Instr} {m : MemArg} {words : Nat} {write : Bool} (s : State) (hm : i.operand = some m)
    (ht : transfer i = some (words, write)) : MemoryShape i m s words write (exec i s) := by
  unfold exec
  cases i with
  | faddM32r | faddM64r | fiaddM16i | fiaddM32i | fsubM32r | fsubM64r | fisubM16i | fisubM32i | fsubrM32r | fsubrM64r
  | fisubrM16i | fisubrM32i | fmulM32r | fmulM64r | fimulM16i | fimulM32i | fdivM32r | fdivM64r | fidivM16i
  | fidivM32i | fdivrM32r | fdivrM64r | fidivrM16i | fidivrM32i | fcomM32r | fcomM64r | ficomM16i | ficomM32i
  | fcompM32r | fcompM64r | ficompM16i | ficompM32i | fldM32r | fldM64r | fldM80r | fildM16i | fildM32i | fildM64i
  | fbldM80d =>
    cases hm
    cases ht
    exact .load rfl
  | fstM32r | fstM64r | fstpM32r | fstpM64r | fstpM80r | fistM16i | fistM32i | fistpM16i | fistpM32i | fistpM64i
  | fbstpM80d =>
    cases hm
    cases ht
    exact .store
  | fldenvM14 | fldcwM2 | frstorM94 =>
    cases hm
    cases ht
    exact .controlLoad rfl
  | fnstcwM2 | fnstswM2 =>
    cases hm
    cases ht
    exact .controlStore
  | fnstenvM14 | fnsaveM94 =>
    cases hm
    cases ht
    exact .image
  | _ => cases ht

/-- On a ready machine each shape takes interrupt 13 when the first word of the operand lies outside. -/
theorem MemoryShape.outside {i : Instr} {m : MemArg} {words : Nat} {write : Bool} {s : State} {o : Outcome}
    (h : MemoryShape i m s words write o) (hready : Ready s)
    (hpc : usesPrecision i = true → precisionReserved s.npx.cw = false)
    (hout : s.operandWordsInside i m words write = 0) : o = .next (takeInterrupt .protection s) := by
  cases h with
  | load hused =>
    subst hused
    exact (startEsc_ready hready).trans ((usingPrecision_allowed hpc).trans (checkOperand_outside hout))
  | store | controlLoad | controlStore | image => exact (startEsc_ready hready).trans (checkOperand_outside hout)

/-- Settles O12, from what each shape does with a first word outside. -/
theorem protectionTrap : Obligations.ProtectionTrap := by
  intro i m words write s hm ht hready hpc hout
  exact ⟨(exec_memoryShape s hm ht).outside hready hpc hout, takeInterruptFrom_npx ..⟩

/-! ## Interrupt 9 -/

/-- Interrupt 9 taken from u by an instruction that began at s: the return link is undefined (log 14). -/
abbrev overrunFrom (s u : State) : Outcome :=
  .next (takeInterruptFrom .segmentOverrun (Config.freeLinkSel s.draws) (Config.freeLinkOff s.draws) u)

/-- The machine in which interrupt 9 is taken: the NPX as the instruction left it. -/
def State.beforeOverrun (s : State) (n : Npx) : State := { s with npx := n }.drawn

theorem next_takeOverrun (s : State) (n : Npx) : .next (takeOverrun s n) = overrunFrom s (s.beforeOverrun n) := rfl

@[simp] theorem freeBytes_length (draw n : Nat) : (freeBytes draw n).length = n := by simp [freeBytes]

/-- A store leaves every byte of memory alone that is not of its operand. -/
theorem State.storeOperand_outside (s : State) (i : Instr) (m : MemArg) (bytes : List Byte) :
    SameMemoryOutside s (s.storeOperand i m bytes) (operandAddresses s i m bytes.length) :=
  fun a ha => s.read_storeBytes_other _ _ bytes a ha

/-- The operand of a store that ends in interrupt 9 is all that the store changes of memory. -/
theorem State.storeOperand_freeBytes_outside (s : State) (i : Instr) (m : MemArg) (draw n : Nat) :
    SameMemoryOutside s (s.storeOperand i m (freeBytes draw n)) (operandAddresses s i m n) := by
  have h := s.storeOperand_outside i m (freeBytes draw n)
  rwa [freeBytes_length] at h

section
variable (n : Npx) (s : State) (i : Instr) (m : MemArg) (left : Nat) (sets clears : Flags) (new : Npx)

/-- The flags are those of the instruction, unless the NEU stays busy with it (log 14). -/
theorem Npx.afterOverrun_flags :
    (n.afterOverrun s i m left sets clears new).flags =
      if (n.afterOverrun s i m left sets clears new).busy then s.npx.flags else n.flags := by
  unfold Npx.afterOverrun
  split <;> rfl

@[simp] theorem Npx.tag_afterOverrun (q : RegNum) : (n.afterOverrun s i m left sets clears new).tag q = n.tag q := by
  simp [Npx.tag]

end

/-! ## The pointers through interrupt 9 -/

/-- Both pointers and the opcode agree. -/
structure PointersAgree (n n' : Npx) : Prop where
  fipSel : n'.fipSel = n.fipSel
  fipOff : n'.fipOff = n.fipOff
  fdpSel : n'.fdpSel = n.fdpSel
  fdpOff : n'.fdpOff = n.fdpOff
  fop : n'.fop = n.fop

theorem PointersAgree.refl (n : Npx) : PointersAgree n n := ⟨rfl, rfl, rfl, rfl, rfl⟩

theorem PointersAgree.trans {n₁ n₂ n₃ : Npx} (h : PointersAgree n₁ n₂) (h' : PointersAgree n₂ n₃) :
    PointersAgree n₁ n₃ where
  fipSel := h'.fipSel.trans h.fipSel
  fipOff := h'.fipOff.trans h.fipOff
  fdpSel := h'.fdpSel.trans h.fdpSel
  fdpOff := h'.fdpOff.trans h.fdpOff
  fop := h'.fop.trans h.fop

theorem PointersAgree.afterOverrun {n n' : Npx} (h : PointersAgree n n') (s : State) (i : Instr) (m : MemArg)
    (left : Nat) (sets clears : Flags) (new : Npx) : PointersAgree n (n'.afterOverrun s i m left sets clears new) where
  fipSel := (Npx.afterOverrun_fipSel ..).trans h.fipSel
  fipOff := (Npx.afterOverrun_fipOff ..).trans h.fipOff
  fdpSel := (Npx.afterOverrun_fdpSel ..).trans h.fdpSel
  fdpOff := (Npx.afterOverrun_fdpOff ..).trans h.fdpOff
  fop := (Npx.afterOverrun_fop ..).trans h.fop

theorem Npx.loadUndefined_pointers (n : Npx) (draw : Nat) (dest : Option RegNum) :
    PointersAgree n (n.loadUndefined draw dest) := by
  cases dest <;> exact ⟨rfl, rfl, rfl, rfl, rfl⟩

theorem Npx.raise_pointers (n : Npx) (f : Flags) : PointersAgree n (n.raise f) := ⟨rfl, rfl, rfl, rfl, rfl⟩

theorem Npx.pop_pointers (n : Npx) : PointersAgree n n.pop := ⟨rfl, rfl, rfl, rfl, rfl⟩

theorem Npx.pops_pointers (n : Npx) (k : Nat) : PointersAgree n (n.pops k) := by
  induction k generalizing n with
  | zero => exact .refl n
  | succ k ih => exact n.pop_pointers.trans (ih n.pop)

section
variable {i : Instr} {m : MemArg} {s u : State}

theorem PointersAgree.instructionLatched (h : PointersAgree (s.latchedMem i m) u.npx) : InstructionLatched i s u :=
  ⟨h.fipSel, h.fipOff, h.fop⟩

theorem PointersAgree.dataLatched (h : PointersAgree (s.latchedMem i m) u.npx) : DataLatched i m s u :=
  ⟨h.fdpSel, h.fdpOff⟩

theorem PointersAgree.kept (h : PointersAgree s.npx u.npx) : PointersKept s u :=
  ⟨h.fipSel, h.fipOff, h.fdpSel, h.fdpOff, h.fop⟩

end

/-! ## The NPX after a load and after a store -/

section
variable {i : Instr} {m : MemArg} {left : Nat} {flags sets clears : Flags} {new : Npx} {s : State}

/-- After a load past the segment's end the flags are as before, whether or not the NEU stays busy (log 14). -/
theorem loadUndefined_afterOverrun_flags (dest : Option RegNum) :
    (((s.latchedMem i m).loadUndefined s.draws dest).afterOverrun s i m left sets clears new).flags =
      s.npx.flags := by
  have hload : ((s.latchedMem i m).loadUndefined s.draws dest).flags = s.npx.flags := by cases dest <;> rfl
  rw [Npx.afterOverrun_flags, hload, ite_self]

theorem Npx.pops_flags (n : Npx) (k : Nat) : (n.pops k).flags = n.flags := by
  induction k generalizing n with
  | zero => rfl
  | succ k ih => exact ih n.pop

theorem stackKept_of_raise {u : State}
    (hu : u.npx = ((s.latchedMem i m).raise flags).afterOverrun s i m left sets clears new) : StackKept s u where
  regs := by rw [hu, Npx.afterOverrun_regs]; rfl
  tags := by rw [hu, Npx.afterOverrun_tags]; rfl
  top := by rw [hu, Npx.afterOverrun_top]; rfl

theorem popped_of_pop {u : State}
    (hu : u.npx = ((s.latchedMem i m).raise flags).pop.afterOverrun s i m left sets clears new) : Popped s u where
  top := by rw [hu, Npx.afterOverrun_top]; rfl
  freed := by rw [hu, Npx.tag_afterOverrun]; exact Npx.tag_pop_top _
  regs := by rw [hu, Npx.afterOverrun_regs]; rfl
  otherTags q hq := by rw [hu, Npx.tag_afterOverrun]; exact Npx.tag_pop_other _ q hq

end

/-! ## Each shape past the segment's end -/

section
variable {pc : Bool} {i : Instr} {m : MemArg} {words pops : Nat} {s : State}

theorem neuLoad_eq_takeOverrun {dest : Option RegNum} {f : List Byte → Npx → Npx} (hready : Ready s)
    (hpc : pc = true → precisionReserved s.npx.cw = false) (ho : Overruns s i m words false) :
    ∃ left new, neuLoad pc i m words dest f s = .next (takeOverrun s
      (((s.latchedMem i m).loadUndefined s.draws dest).afterOverrun s i m left new.flags 0 new)) := by
  unfold neuLoad
  rw [startEsc_ready hready, usingPrecision_allowed hpc, checkOperand_inside ho.first]
  exact ⟨_, _, if_pos ho.notAll⟩

theorem neuLoad_overrun {dest : Option RegNum} {f : List Byte → Npx → Npx} (hready : Ready s)
    (hpc : pc = true → precisionReserved s.npx.cw = false) (ho : Overruns s i m words false) :
    ∃ u, neuLoad pc i m words dest f s = overrunFrom s u ∧ u.cpu = s.cpu ∧ u.mem = s.mem ∧ u.platform = s.platform ∧
      u.npx.flags = s.npx.flags ∧ u.npx.cw = s.npx.cw ∧ u.npx.pm = s.npx.pm ∧ InstructionLatched i s u ∧
      DataLatched i m s u := by
  obtain ⟨left, new, hload⟩ := neuLoad_eq_takeOverrun (dest := dest) (f := f) hready hpc ho
  have hpointers := ((s.latchedMem i m).loadUndefined_pointers s.draws dest).afterOverrun s i m left new.flags 0 new
  have hchange := ((s.npx.latch_change ..).trans
    ((s.latchedMem i m).loadUndefined_change s.draws dest)).afterOverrun i m left new.flags 0 new
  exact ⟨s.beforeOverrun _, hload.trans (next_takeOverrun ..), rfl, rfl, rfl,
    loadUndefined_afterOverrun_flags dest, hchange.cw, hchange.pm, hpointers.instructionLatched, hpointers.dataLatched⟩

/-- A store that no unmasked exception ends raises its flags; whether it pops is free (log 14). -/
theorem neuStore_eq_takeOverrun {value : Npx → Out Nat} {o : Out Nat} (hready : Ready s)
    (ho : Overruns s i m words true) (hvalue : value (s.latchedMem i m) = o) (hv : o.value ≠ none) :
    ∃ k left new, (k = 0 ∨ k = pops) ∧ neuStore i m words pops value s =
      .next (takeOverrun (s.storeOperand i m (freeBytes s.draws (2 * words)))
        ((((s.latchedMem i m).raise o.flags).pops k).afterOverrun s i m left o.flags 0 new)) := by
  obtain ⟨v, hv⟩ := Option.ne_none_iff_exists'.mp hv
  unfold neuStore
  rw [startEsc_ready hready, checkOperand_inside ho.first, hvalue]
  unfold commitStore
  simp only [hv, if_pos ho.notAll]
  cases Config.overrunCompletes s.draws with
  | true => exact ⟨pops, _, _, .inr rfl, rfl⟩
  | false => exact ⟨0, _, _, .inl rfl, rfl⟩

theorem neuStore_overrun {value : Npx → Out Nat} {o : Out Nat} (hready : Ready s) (ho : Overruns s i m words true)
    (hpops : pops ≤ 1) (hvalue : value (s.latchedMem i m) = o) (hv : o.value ≠ none) :
    ∃ u, neuStore i m words pops value s = overrunFrom s u ∧ u.cpu = s.cpu ∧ u.platform = s.platform ∧
      SameMemoryOutside s u (operandAddresses s i m (2 * words)) ∧
      u.npx.flags = (if u.npx.busy then s.npx.flags else s.npx.flags ||| o.flags) ∧ u.npx.cw = s.npx.cw ∧
      u.npx.pm = s.npx.pm ∧ (StackKept s u ∨ (pops = 1 ∧ Popped s u)) ∧ InstructionLatched i s u ∧
      DataLatched i m s u := by
  obtain ⟨k, left, new, hk, hstore⟩ := neuStore_eq_takeOverrun (pops := pops) hready ho hvalue hv
  have hpointers := (((s.latchedMem i m).raise_pointers o.flags).trans (Npx.pops_pointers _ k)).afterOverrun s i m left
    o.flags 0 new
  have hchange := ((s.npx.latch_change ..).trans (((s.latchedMem i m).raise_change o.flags).trans
    (Npx.pops_change _ k))).afterOverrun i m left o.flags 0 new
  refine ⟨(s.storeOperand i m _).beforeOverrun _, hstore.trans (next_takeOverrun ..), rfl, rfl,
    s.storeOperand_freeBytes_outside i m s.draws (2 * words), ?_, hchange.cw, hchange.pm, ?_,
    hpointers.instructionLatched, hpointers.dataLatched⟩
  · exact (Npx.afterOverrun_flags ..).trans (by rw [Npx.pops_flags]; rfl)
  · obtain rfl | ⟨rfl, rfl⟩ : k = 0 ∨ (pops = 1 ∧ k = 1) := by omega
    · exact .inl (stackKept_of_raise rfl)
    · exact .inr ⟨rfl, popped_of_pop rfl⟩

theorem loadControl_eq_takeOverrun {f : Npx → List Byte → Npx} (hready : Ready s) (ho : Overruns s i m words false) :
    ∃ bytes left sets clears new, loadControl i m words f s =
      .next (takeOverrun s ((f s.npx bytes).afterOverrun s i m left sets clears new)) := by
  unfold loadControl
  rw [startEsc_ready hready, checkOperand_inside ho.first]
  exact ⟨_, _, _, _, _, if_pos ho.notAll⟩

theorem loadControl_overrun {f : Npx → List Byte → Npx} (hready : Ready s) (ho : Overruns s i m words false)
    (hf : ∀ bytes, (f s.npx bytes).pm = s.npx.pm) :
    ∃ u, loadControl i m words f s = overrunFrom s u ∧ u.cpu = s.cpu ∧ u.mem = s.mem ∧ u.platform = s.platform ∧
      u.npx.pm = s.npx.pm := by
  obtain ⟨bytes, left, sets, clears, new, hload⟩ := loadControl_eq_takeOverrun (f := f) hready ho
  exact ⟨s.beforeOverrun _, hload.trans (next_takeOverrun ..), rfl, rfl, rfl,
    (Npx.afterOverrun_pm ..).trans (hf bytes)⟩

/-- Whether the effect of an image store takes place is free (log 14). -/
theorem storeImage_eq_takeOverrun {image : State → List Byte} {after : Npx → Npx} (hpassed : Passed s)
    (hidle : s.npx.busy = false) (ho : Overruns s i m words true) :
    ∃ n left sets clears new, (n = s.npx ∨ n = after s.npx) ∧ storeImage i m words image after s =
      .next (takeOverrun (s.storeOperand i m (freeBytes s.draws (2 * words)))
        (n.afterOverrun s i m left sets clears new)) := by
  unfold storeImage
  rw [startEsc_passed hpassed, checkOperand_inside ho.first]
  simp only [hidle, Bool.false_eq_true, if_false, if_pos ho.notAll]
  refine ⟨_, _, _, _, _, ?_, rfl⟩
  split
  · exact .inr rfl
  · exact .inl rfl

theorem storeImage_overrun {image : State → List Byte} {after : Npx → Npx} (hpassed : Passed s)
    (hidle : s.npx.busy = false) (ho : Overruns s i m words true) (hpointers : PointersAgree s.npx (after s.npx))
    (hregs : (after s.npx).regs = s.npx.regs) (hpm : (after s.npx).pm = s.npx.pm) :
    ∃ u, storeImage i m words image after s = overrunFrom s u ∧ u.cpu = s.cpu ∧ u.platform = s.platform ∧
      SameMemoryOutside s u (operandAddresses s i m (2 * words)) ∧ PointersKept s u ∧ u.npx.regs = s.npx.regs ∧
      u.npx.pm = s.npx.pm := by
  obtain ⟨n, left, sets, clears, new, hn, hstore⟩ :=
    storeImage_eq_takeOverrun (image := image) (after := after) hpassed hidle ho
  have hkept : PointersAgree s.npx n ∧ n.regs = s.npx.regs ∧ n.pm = s.npx.pm := by
    rcases hn with rfl | rfl
    · exact ⟨.refl _, rfl, rfl⟩
    · exact ⟨hpointers, hregs, hpm⟩
  obtain ⟨hpointers, hregs, hpm⟩ := hkept
  exact ⟨(s.storeOperand i m _).beforeOverrun _, hstore.trans (next_takeOverrun ..), rfl, rfl,
    s.storeOperand_freeBytes_outside i m s.draws (2 * words), (hpointers.afterOverrun ..).kept,
    (Npx.afterOverrun_regs ..).trans hregs, (Npx.afterOverrun_pm ..).trans hpm⟩

end

/-! ## Which instructions have which shape -/

/-- The arithmetic, comparison and load instructions are no control instructions. -/
theorem isControl_of_memForm {i : Instr} (h : (arithMemForm i).isSome ∨ (compareMemForm i).isSome ∨
    (loadForm i).isSome ∨ (realLoadForm i).isSome) : isControl i = false := by
  by_contra hi
  cases i with
  | fldenvM14 | fldcwM2 | fnstenvM14 | fnstcwM2 | fneni | fndisi | fnclex | fninit | fsetpm | frstorM94 | fnsaveM94
  | fnstswM2 | fnstswAx | fwait =>
    rcases h with h | h | h | h <;> cases h
  | _ => exact hi rfl

/-- A memory instruction that reads and is no control instruction is a load of the NEU. -/
theorem MemoryShape.eq_neuLoad {i : Instr} {m : MemArg} {words : Nat} {s : State} {o : Outcome}
    (h : MemoryShape i m s words false o) (hi : isControl i = false) :
    ∃ dest f, o = neuLoad (usesPrecision i) i m words dest f s := by
  cases h with
  | load hused => exact ⟨_, _, by rw [hused]⟩
  | controlLoad hc =>
    rw [hi] at hc
    cases hc

/-- A store instruction stores what `storeForm` makes of ST and the control word, and pops at most once. -/
theorem exec_storeForm {i : Instr} {m : MemArg} {words pops : Nat} {f : Nat → Word → TempReal → Out Nat} (s : State)
    (h : storeForm i = some (m, words, pops, f)) :
    exec i s = neuStore i m words pops (fun n => (n.fetch 0).andThen (f s.draws n.cw)) s ∧ pops ≤ 1 := by
  cases i with
  | fstM32r | fstM64r | fistM16i | fistM32i =>
    cases h
    exact ⟨rfl, Nat.zero_le 1⟩
  | fstpM32r | fstpM64r | fstpM80r | fistpM16i | fistpM32i | fistpM64i | fbstpM80d =>
    cases h
    exact ⟨rfl, Nat.le_refl 1⟩
  | _ => cases h

/-- Settles O13, from what each shape does with a first word inside and a later one outside. -/
theorem segmentOverrunTrap : Obligations.SegmentOverrunTrap := by
  refine ⟨fun i m words s hm ht hform hready hpc hfirst hnot => ?_,
    fun i m words pops v f s hform hready hfirst hnot hv => ?_,
    fun p m words i s hi hready hfirst hnot => ?_, fun p m words i s hi hpassed hidle hfirst hnot => ?_⟩
  · obtain ⟨dest, f, hexec⟩ := (exec_memoryShape s hm ht).eq_neuLoad (isControl_of_memForm hform)
    rw [hexec]
    exact neuLoad_overrun hready hpc ⟨hfirst, hnot⟩
  · obtain ⟨hexec, hpops⟩ := exec_storeForm s hform
    rw [hexec]
    exact neuStore_overrun hready ⟨hfirst, hnot⟩ hpops rfl (Option.ne_none_iff_exists'.mpr ⟨v, hv⟩)
  · unfold exec
    rcases hi with ⟨rfl, rfl⟩ | ⟨rfl, rfl⟩
    · exact loadControl_overrun hready ⟨hfirst, hnot⟩ s.npx.loadEnvironment_pm
    · exact loadControl_overrun hready ⟨hfirst, hnot⟩ s.npx.restore_pm
  · unfold exec
    rcases hi with ⟨rfl, rfl⟩ | ⟨rfl, rfl⟩
    · exact storeImage_overrun hpassed hidle ⟨hfirst, hnot⟩ ⟨rfl, rfl, rfl, rfl, rfl⟩ rfl rfl
    · exact storeImage_overrun hpassed hidle ⟨hfirst, hnot⟩ ⟨rfl, rfl, rfl, rfl, rfl⟩ rfl rfl

end Sys2Proof.Machine
end

section
/-! PROOFS. What the decoder reads is what the encoder writes, and which ESC codes no instruction has. -/

namespace Sys2Proof

open Safety

/-! ## A byte from its fields, a word from its bytes, a base register from its code -/

/-- A byte is the ModRM byte of its three fields (spec 30 R130). -/
@[simp] theorem modRM_fields (b : Byte) : modRM (modField b) (extField b) (rmField b) = b := by
  have hhigh : modField b ++ extField b = b.extractLsb' 3 5 :=
    BitVec.extractLsb'_append_extractLsb'_eq_extractLsb' rfl
  unfold modRM
  rw [hhigh]
  exact (BitVec.extractLsb'_append_extractLsb'_eq_extractLsb' rfl).trans BitVec.extractLsb'_eq_self

theorem toNat_modRM (mod : BitVec 2) (ext rm : BitVec 3) :
    (modRM mod ext rm).toNat = 64 * mod.toNat + 8 * ext.toNat + rm.toNat := by
  rw [modRM, BitVec.toNat_append, BitVec.toNat_append, ← Nat.shiftLeft_add_eq_or_of_lt rm.isLt,
    ← Nat.shiftLeft_add_eq_or_of_lt ext.isLt, Nat.shiftLeft_eq, Nat.shiftLeft_eq]
  omega

@[simp] theorem lowByte_wordOf (lo hi : Byte) : lowByte (wordOf lo hi) = lo := BitVec.extractLsb'_append_eq_right

@[simp] theorem highByte_wordOf (lo hi : Byte) : highByte (wordOf lo hi) = hi := BitVec.extractLsb'_append_eq_left

@[simp] theorem Base.code_ofCode (rm : BitVec 3) : (Base.ofCode rm).code = rm := by
  revert rm
  decide

/-- The first byte of an ESC is one of eight (spec 30 R133). -/
theorem esc_cases {b1 : Byte} (h : 0xD8 ≤ b1.toNat ∧ b1.toNat ≤ 0xDF) :
    b1 = 0xD8 ∨ b1 = 0xD9 ∨ b1 = 0xDA ∨ b1 = 0xDB ∨ b1 = 0xDC ∨ b1 = 0xDD ∨ b1 = 0xDE ∨ b1 = 0xDF := by
  bv_omega

/-! ## Decoded memory operands -/

theorem MemArg.wellFormed_base {b : Base} (hb : b ≠ .bp) : (MemArg.base b).WellFormed = true := by
  cases b with
  | bp => exact absurd rfl hb
  | _ => rfl

/-- A memory operand read from MOD, R/M and a displacement has an encoding, and its encoding is what was read. -/
theorem encodeMemArg_of_decodeMemArg {mod : BitVec 2} {rm : BitVec 3} {bytes rest : List Byte} {m : MemArg}
    (h : decodeMemArg mod rm bytes = .ok (m, rest)) (ext : BitVec 3) :
    modRM mod ext rm :: bytes = encodeMemArg ext m ++ rest ∧ m.WellFormed = true := by
  unfold decodeMemArg at h
  split at h
  next hmod =>
    obtain rfl : mod = 0 := BitVec.eq_of_toNat_eq hmod
    split at h
    next hrm =>
      subst hrm
      split at h <;> cases h
      exact ⟨by simp [encodeMemArg], rfl⟩
    next hrm =>
      cases h
      have hbp : Base.ofCode rm ≠ .bp := by rwa [Ne, ← Base.code_eq_six_iff, Base.code_ofCode]
      exact ⟨by simp [encodeMemArg], MemArg.wellFormed_base hbp⟩
  next hmod =>
    obtain rfl : mod = 1 := BitVec.eq_of_toNat_eq hmod
    cases h
    exact ⟨by simp [encodeMemArg], rfl⟩
  next hmod =>
    obtain rfl : mod = 2 := BitVec.eq_of_toNat_eq hmod
    cases h
    exact ⟨by simp [encodeMemArg], rfl⟩
  next => cases h

/-! ## The rows of the tables -/

/-- An instruction with these overrides, this memory operand and these bytes after its overrides. -/
structure Instr.Reads (i : Instr) (p : List Seg) (m : Option MemArg) (body : List Byte) : Prop where
  overrides : i.overrides = p
  operand : i.operand = m
  body : encodeBody i = body

/-- The memory rows of the tables are written as they are read (spec 30 R134 to R145). -/
theorem reads_of_decodeMem {b1 : Byte} {ext : Nat} {p : List Seg} {m : MemArg} {i : Instr}
    (hb : 0xD8 ≤ b1.toNat ∧ b1.toNat ≤ 0xDF) (h : decodeMem b1.toNat ext p m = some i) :
    i.Reads p (some m) (b1 :: encodeMemArg (BitVec.ofNat 3 ext) m) := by
  rcases esc_cases hb with rfl | rfl | rfl | rfl | rfl | rfl | rfl | rfl <;>
    simp only [decodeMem, BitVec.reduceToNat, decodeMemD8, decodeMemD9, decodeMemDA, decodeMemDB, decodeMemDC,
      decodeMemDD, decodeMemDE, decodeMemDF] at h <;>
    split at h <;> cases h <;> exact ⟨rfl, rfl, rfl⟩

theorem eq_ofNat_of_toNat_eq {r : RegNum} {k : Nat} (h : r.toNat = k) : r = BitVec.ofNat 3 k := by
  rw [← h, BitVec.ofNat_toNat, BitVec.setWidth_eq]

/-- The rows of the tables with a register or no operand are written as they are read: a row with no operand is found
by bits 2:0 of the second byte too (spec 30 R134 to R145). -/
theorem reads_of_decodeReg {b1 : Byte} {ext : Nat} {r : RegNum} {p : List Seg} {i : Instr}
    (hb : 0xD8 ≤ b1.toNat ∧ b1.toNat ≤ 0xDF) (h : decodeReg b1.toNat ext r p = some i) :
    i.Reads p none [b1, modRM 3 (BitVec.ofNat 3 ext) r] := by
  rcases esc_cases hb with rfl | rfl | rfl | rfl | rfl | rfl | rfl | rfl <;>
    simp only [decodeReg, BitVec.reduceToNat, decodeRegD8, decodeRegD9, decodeRegDB, decodeRegDC, decodeRegDD,
      decodeRegDE, decodeRegDF, reduceCtorEq] at h <;>
    split at h
  any_goals split at h
  all_goals cases h
  any_goals exact ⟨rfl, rfl, rfl⟩
  all_goals
    obtain rfl := eq_ofNat_of_toNat_eq ‹r.toNat = _›
    exact ⟨rfl, rfl, rfl⟩

theorem orUnassigned_eq_ok_iff {o : Option Instr} {bytes rest : List Byte} {i : Instr} :
    orUnassigned bytes o = .ok (i, rest) ↔ o = some i ∧ bytes = rest := by
  cases o <;> simp [orUnassigned]

theorem orUnassigned_eq_unassignedEsc_iff {o : Option Instr} {bytes : List Byte} :
    orUnassigned bytes o = .error .unassignedEsc ↔ o = none := by
  cases o <;> simp [orUnassigned]

/-! ## What a body or a whole instruction was read from -/

/-- An instruction of these overrides was read from these bytes: they are its body and the bytes left, and its operand,
if it has one, has an encoding. -/
structure Instr.ReadFrom (i : Instr) (p : List Seg) (bytes rest : List Byte) : Prop where
  overrides : i.overrides = p
  bytes : bytes = encodeBody i ++ rest
  operand : ∀ m, i.operand = some m → m.WellFormed = true

/-- A row of the tables, once its operand and the bytes after it are known. -/
theorem Instr.Reads.readFrom {i : Instr} {p : List Seg} {m : Option MemArg} {body bytes rest : List Byte}
    (h : i.Reads p m body) (hbytes : bytes = body ++ rest) (hm : ∀ a, m = some a → a.WellFormed = true) :
    i.ReadFrom p bytes rest :=
  ⟨h.overrides, h.body ▸ hbytes, fun a ha => hm a (h.operand ▸ ha)⟩

theorem readFrom_of_decodeEsc {b1 b2 : Byte} {p : List Seg} {bytes rest : List Byte} {i : Instr}
    (hb : 0xD8 ≤ b1.toNat ∧ b1.toNat ≤ 0xDF) (h : decodeEsc b1 b2 p bytes = .ok (i, rest)) :
    i.ReadFrom p (b1 :: b2 :: bytes) rest := by
  have hext : BitVec.ofNat 3 (extField b2).toNat = extField b2 := by simp
  unfold decodeEsc at h
  split at h
  next hmod =>
    obtain ⟨hrow, rfl⟩ := orUnassigned_eq_ok_iff.mp h
    refine (reads_of_decodeReg hb hrow).readFrom ?_ (fun _ h => nomatch h)
    rw [hext, ← hmod, modRM_fields]
    rfl
  next hmod =>
    split at h
    next m left hm =>
      obtain ⟨hrow, rfl⟩ := orUnassigned_eq_ok_iff.mp h
      obtain ⟨henc, hwf⟩ := encodeMemArg_of_decodeMemArg hm (extField b2)
      refine (reads_of_decodeMem hb hrow).readFrom ?_ (fun _ h => Option.some.inj h ▸ hwf)
      rw [hext, List.cons_append, ← henc, modRM_fields]
    next => cases h

theorem readFrom_of_decodeBody {p : List Seg} {bytes rest : List Byte} {i : Instr}
    (h : decodeBody p bytes = .ok (i, rest)) : i.ReadFrom p bytes rest := by
  unfold decodeBody at h
  split at h
  next => cases h
  next b1 bytes =>
    split at h
    next hwait =>
      cases h
      exact ⟨rfl, hwait ▸ rfl, fun _ h => nomatch h⟩
    next =>
      split at h
      next hesc =>
        split at h
        next => exact readFrom_of_decodeEsc hesc h
        next => cases h
      next => split at h <;> cases h

/-- The override bytes taken off the front are those of the segments they name (spec 30 R157 (1)). -/
theorem map_code_takeOverrides_append (bytes : List Byte) :
    (takeOverrides bytes).1.map Seg.code ++ (takeOverrides bytes).2 = bytes := by
  induction bytes with
  | nil => rfl
  | cons b bytes ih =>
    unfold takeOverrides
    split
    next g hg => rw [Seg.ofByte_eq_some_iff.mp hg, List.map_cons, List.cons_append, ih]
    next => rfl

/-! ## The codes of no row -/

/-- The memory forms that no row has are those of the list (spec 30 R146). -/
theorem decodeMem_eq_none_iff {b1 b2 : Byte} (p : List Seg) (m : MemArg) (hb : 0xD8 ≤ b1.toNat ∧ b1.toNat ≤ 0xDF)
    (hmod : modField b2 ≠ 3) : decodeMem b1.toNat (extField b2).toNat p m = none ↔ unassigned b1 b2 = true := by
  have hext := (extField b2).isLt
  have hmemory : (modField b2 != 3) = true := bne_iff_ne.mpr hmod
  simp only [unassigned, hmemory]
  generalize (extField b2).toNat = ext at hext ⊢
  rcases esc_cases hb with rfl | rfl | rfl | rfl | rfl | rfl | rfl | rfl <;>
    simp only [decodeMem, BitVec.reduceToNat, decodeMemD8, decodeMemD9, decodeMemDA, decodeMemDB, decodeMemDC,
      decodeMemDD, decodeMemDE, decodeMemDF] <;>
    split <;> simp [imp_false] at * <;> omega

/-- The register forms that no row has are those of the list, which gives the second byte as a number: 192 and its two
lower fields (spec 30 R146). -/
theorem decodeReg_eq_none_iff {b1 b2 : Byte} (p : List Seg) (hb : 0xD8 ≤ b1.toNat ∧ b1.toNat ≤ 0xDF)
    (hmod : modField b2 = 3) :
    decodeReg b1.toNat (extField b2).toNat (rmField b2) p = none ↔ unassigned b1 b2 = true := by
  have hb2 : b2.toNat = 192 + 8 * (extField b2).toNat + (rmField b2).toNat :=
    calc b2.toNat
      _ = (modRM (modField b2) (extField b2) (rmField b2)).toNat := by rw [modRM_fields]
      _ = 192 + 8 * (extField b2).toNat + (rmField b2).toNat := by rw [toNat_modRM, hmod]; rfl
  have hext := (extField b2).isLt
  have hrm := (rmField b2).isLt
  have hmemory : (modField b2 != 3) = false := by rw [hmod]; rfl
  simp only [unassigned, hmemory, hb2]
  generalize rmField b2 = r at hrm ⊢
  generalize (extField b2).toNat = ext at hext ⊢
  rcases esc_cases hb with rfl | rfl | rfl | rfl | rfl | rfl | rfl | rfl <;>
    simp only [decodeReg, BitVec.reduceToNat, decodeRegD8, decodeRegD9, decodeRegDB, decodeRegDC, decodeRegDD,
      decodeRegDE, decodeRegDF, List.contains_cons, List.contains_nil, Bool.or_eq_true, Bool.and_eq_true,
      decide_eq_true_eq, beq_iff_eq, Bool.not_false, Bool.false_eq_true, if_false, or_false, true_and] <;>
    split
  any_goals split
  all_goals simp only [reduceCtorEq, false_iff, true_iff, imp_false] at * <;> omega

/-- Two bytes are enough for the displacement of any memory form (spec 30 R131). -/
theorem decodeMemArg_of_two_bytes {mod : BitVec 2} (hmod : mod ≠ 3) (rm : BitVec 3) (d1 d2 : Byte) (rest : List Byte) :
    ∃ m left, decodeMemArg mod rm (d1 :: d2 :: rest) = .ok (m, left) := by
  obtain rfl | rfl | rfl : mod = 0 ∨ mod = 1 ∨ mod = 2 := by bv_omega
  · by_cases hrm : rm = 6
    · exact ⟨_, _, if_pos hrm⟩
    · exact ⟨_, _, if_neg hrm⟩
  · exact ⟨_, _, rfl⟩
  · exact ⟨_, _, rfl⟩

/-- Bytes that begin with an ESC have no overrides. -/
theorem decode_esc {b1 : Byte} (b2 : Byte) (bytes : List Byte) (hb : 0xD8 ≤ b1.toNat ∧ b1.toNat ≤ 0xDF) :
    decode (b1 :: b2 :: bytes) = decodeEsc b1 b2 [] bytes := by
  have hfront : takeOverrides (b1 :: b2 :: bytes) = ([], b1 :: b2 :: bytes) := by
    rcases esc_cases hb with rfl | rfl | rfl | rfl | rfl | rfl | rfl | rfl <;> rfl
  simp only [decode, hfront, decodeBody_esc [] bytes hb]

/-! ## The statements -/

/-- Settles O1: the round trip, body by body and override by override. -/
theorem decodeEncodeRoundTrip : Obligations.DecodeEncodeRoundTrip :=
  fun _ rest hwf => decode_encode_append hwf rest

/-- Settles O2, from what the body and the overrides were read from. -/
theorem decodingDeterminesTheBytes : Obligations.DecodingDeterminesTheBytes := by
  intro bytes rest i h
  obtain ⟨hoverrides, hbody, hoperand⟩ := readFrom_of_decodeBody h
  refine ⟨?_, hoperand⟩
  calc bytes
    _ = (takeOverrides bytes).1.map Seg.code ++ (takeOverrides bytes).2 := (map_code_takeOverrides_append bytes).symm
    _ = encode i ++ rest := by rw [hbody, ← hoverrides, encode, List.append_assoc]

/-- Settles O4, from the codes of no row among the memory and the register forms. -/
theorem unassignedCodesRefused : Obligations.UnassignedCodesRefused := by
  intro b1 b2 d1 d2 rest hlow hhigh
  have hb := And.intro hlow hhigh
  rw [decode_esc b2 _ hb, decodeEsc]
  split
  next hmod => exact orUnassigned_eq_unassignedEsc_iff.trans (decodeReg_eq_none_iff [] hb hmod)
  next hmod =>
    obtain ⟨m, left, hm⟩ := decodeMemArg_of_two_bytes hmod (rmField b2) d1 d2 rest
    rw [hm]
    exact orUnassigned_eq_unassignedEsc_iff.trans (decodeMem_eq_none_iff [] m hb hmod)

/-- Settles O3, by running the decoder on each word. -/
theorem specWordsDecode : Obligations.SpecWordsDecode :=
  ⟨rfl, rfl, rfl, rfl, rfl, rfl, rfl, rfl⟩

end Sys2Proof
end

section
/-! PROOFS. Constants, register transfers and memory loads (spec 40 R161 to R187, 44): each ends in `commit`, and what
an instruction of that shape leaves behind is said once. -/

namespace Sys2Proof.Machine

open Sys2Proof.Safety

/-! ## What an instruction that ends in `commit` leaves behind (spec 60 R370, R371) -/

/-- Of the NPX only registers, tags and TOP differ. -/
def OnlyStackChanges (n n' : Npx) : Prop := n' = { n with regs := n'.regs, tags := n'.tags, top := n'.top }

/-- The NPX of s when the NEU has taken instruction i (spec 10 R43 to R48), its data pointer and condition code
given. -/
abbrev State.taken (s : State) (i : Instr) (sel off : Word) (cc : BitVec 4) : Npx :=
  s.npx.latch i s.cpu.cs.sel s.cpu.ip sel off cc

section
variable {i : Instr} {s t : State} {sel off : Word} {cc : BitVec 4}

/-- The frame of an instruction that raises flags and else changes only the stack. -/
theorem numericFrame_of_onlyStackChanges {f : Flags} (hcpu : OnlyIpMoves i s t)
    (h : OnlyStackChanges ((s.taken i sel off cc).raise f) t.npx) :
    NumericFrame i s t ∧ t.npx.flags = s.npx.flags ||| f := by
  have hflags : t.npx.flags = s.npx.flags ||| f := congrArg Npx.flags h
  have hcontrol : ControlKept s t := ⟨(congrArg Npx.cw h :), (congrArg Npx.pm h :), (congrArg Npx.inFlight h :),
    (congrArg Npx.imagePending h :)⟩
  have hlatched : InstructionLatched i s t :=
    ⟨(congrArg Npx.fipSel h :), (congrArg Npx.fipOff h :), (congrArg Npx.fop h :)⟩
  refine ⟨⟨hcpu, hcontrol, hlatched, ?_⟩, hflags⟩
  rw [hflags, flags_sticky]

theorem dataLatched_of_onlyStackChanges {m : MemArg} {f : Flags}
    (h : OnlyStackChanges ((s.latchedMem i m).raise f) t.npx) : DataLatched i m s t :=
  ⟨congrArg Npx.fdpSel h, congrArg Npx.fdpOff h⟩

end

/-- From s to t instruction i, taken as the NPX n, did what `commit` does with the outcome o and an effect on the
stack. -/
structure Committed {α : Type} (i : Instr) (s t : State) (n : Npx) (o : Out α) (effect : Npx → α → Npx) : Prop where
  frame : NumericFrame i s t
  memory : SameMemory s t
  flags : t.npx.flags = s.npx.flags ||| o.flags
  ended : o.value = none → StackKept s t
  done : ∀ v, o.value = some v → t.npx = effect (n.raise o.flags) v

section
variable {α : Type} {i : Instr} {s t : State} {n : Npx} {o : Out α} {effect : Npx → α → Npx} {v : α}

theorem onlyStackChanges_commit (heff : ∀ n v, OnlyStackChanges n (effect n v)) (n : Npx) (o : Out α) :
    OnlyStackChanges (n.raise o.flags) (n.commit o effect) := by
  rcases n.commit_cases o effect with ⟨_, h⟩ | ⟨v, _, h⟩
  · rw [h]
    rfl
  · rw [h]
    exact heff _ v

theorem committed_finish (heff : ∀ n v, OnlyStackChanges n (effect n v)) (sel off : Word) (cc : BitVec 4) :
    Committed i s (s.finish i ((s.taken i sel off cc).commit o effect)) (s.taken i sel off cc) o effect := by
  obtain ⟨hframe, hflags⟩ := numericFrame_of_onlyStackChanges (s := s)
    (t := s.finish i ((s.taken i sel off cc).commit o effect)) ⟨rfl, rfl⟩ (onlyStackChanges_commit heff ..)
  refine ⟨hframe, fun _ => rfl, hflags, fun hv => ?_, fun v hv => ?_⟩
  · simp only [Npx.commit, hv]
    exact ⟨rfl, rfl, rfl⟩
  · simp only [Npx.commit, hv, State.finish_npx]

/-- With a plain value no flag is signalled, and the effect takes place. -/
theorem Committed.of_pure {P : Prop} (h : Committed i s t n o effect) (ho : o = .pure v)
    (hP : ∀ f, t.npx = effect (n.raise f) v → P) : t.npx.flags = s.npx.flags ∧ P := by
  subst ho
  exact ⟨h.flags.trans BitVec.or_zero, hP _ (h.done v rfl)⟩

/-- With an exception detected before the operation its flag is set; masked, the effect takes place with the response,
and unmasked the stack is kept. -/
theorem Committed.of_signalBefore {P : Prop} {cw : Word} {f : Flags} (h : Committed i s t n o effect)
    (ho : o = signalBefore cw f v) (hP : ∀ f, t.npx = effect (n.raise f) v → P) :
    t.npx.flags = s.npx.flags ||| f ∧ (masked cw f = true → P) ∧ (masked cw f = false → StackKept s t) := by
  subst ho
  refine ⟨h.flags, fun hm => ?_, fun hm => ?_⟩
  · rw [signalBefore_masked v hm] at h
    exact hP _ (h.done v rfl)
  · rw [signalBefore_unmasked v hm] at h
    exact h.ended rfl

/-- An invalid operation, by bit 0 of the control word. -/
theorem Committed.of_invalid {P : Prop} {cw : Word} (h : Committed i s t n o effect)
    (ho : o = signalBefore cw flagI v) (hP : ∀ f, t.npx = effect (n.raise f) v → P) :
    t.npx.flags = s.npx.flags ||| flagI ∧ (cw.getLsbD 0 = true → P) ∧ (cw.getLsbD 0 = false → StackKept s t) := by
  rw [← masked_flagI]
  exact h.of_signalBefore ho hP

end

/-! ## The checks of `push` and of a register read -/

section
variable {n : Npx}

theorem Npx.fetch_empty {k : RegNum} (h : n.isEmpty k = true) : n.fetch k = signalBefore n.cw flagI indefinite := by
  rw [Npx.fetch, if_pos h]

theorem Npx.pushSlot_room (h : n.isEmpty 7 = true) (v : TempReal) : n.pushSlot v = .pure v := by
  rw [Npx.pushSlot, if_pos h]

theorem Npx.pushSlot_full (h : n.isEmpty 7 = false) (v : TempReal) :
    n.pushSlot v = signalBefore n.cw flagI indefinite := by
  rw [Npx.pushSlot, if_neg (Bool.not_eq_true _ ▸ h)]

/-- An invalid operation answered by a value that nothing more is signalled for, or that the same is signalled for. -/
theorem signalBefore_andThen {α β : Type} (cw : Word) (f : Flags) (v : α) (w : β) {g : α → Out β}
    (hg : g v = .pure w ∨ g v = signalBefore cw f w) :
    (signalBefore cw f v).andThen g = signalBefore cw f w := by
  cases hm : masked cw f with
  | true =>
    rw [signalBefore_masked v hm, signalBefore_masked w hm]
    rcases hg with hg | hg
    · simp [Out.andThen, hg, Out.pure]
    · simp [Out.andThen, hg, signalBefore_masked w hm]
  | false =>
    rw [signalBefore_unmasked v hm, signalBefore_unmasked w hm]
    rfl

end

/-! ## Pushes -/

section
variable {i : Instr} {s t : State} {sel off : Word} {cc : BitVec 4} {v : TempReal}

theorem pushed_of_pushValue (f : Flags) (h : t.npx = ((s.taken i sel off cc).raise f).pushValue v) : Pushed s t v := by
  refine ⟨?_, ?_, ?_, fun q hq => ⟨?_, ?_⟩⟩ <;> rw [h]
  · rfl
  · exact Npx.reg_setReg_same ..
  · exact Npx.tag_setReg_same ..
  · exact Npx.reg_setReg_other _ _ _ _ hq
  · exact Npx.tag_setReg_other _ _ _ _ hq

theorem Npx.pushValue_onlyStack (n : Npx) (v : TempReal) : OnlyStackChanges n (n.pushValue v) := rfl

/-- What `push` of v gives: v with room, and else an invalid operation. -/
theorem Committed.pushes
    (h : Committed i s t (s.taken i sel off cc) ((s.taken i sel off cc).pushSlot v) Npx.pushValue) :
    (s.npx.isEmpty 7 = true → t.npx.flags = s.npx.flags ∧ Pushed s t v) ∧
    (s.npx.isEmpty 7 = false → t.npx.flags = s.npx.flags ||| flagI ∧
      (s.npx.cw.getLsbD 0 = true → Pushed s t indefinite) ∧ (s.npx.cw.getLsbD 0 = false → StackKept s t)) :=
  ⟨fun hroom => h.of_pure (Npx.pushSlot_room (n := s.taken i sel off cc) hroom v) pushed_of_pushValue,
    fun hfull => h.of_invalid (Npx.pushSlot_full (n := s.taken i sel off cc) hfull v) pushed_of_pushValue⟩

end

/-! ## The constants (spec 44) -/

theorem exec_constForm {i : Instr} {c : TempReal} (s : State) (h : constForm i = some c) :
    exec i s = neuRegister false i (fun n => n.push c) s := by
  cases i with
  | fldz | fld1 | fldpi | fldl2t | fldl2e | fldlg2 | fldln2 =>
    cases h
    rfl
  | _ => cases h

/-- A register instruction on a ready machine, precision control left aside, ends in its `commit`. -/
theorem neuRegister_committed {α : Type} {i : Instr} {s : State} {o : Npx → Out α} {effect : Npx → α → Npx}
    (hready : Ready s) (heff : ∀ n v, OnlyStackChanges n (effect n v)) :
    ∃ t, neuRegister false i (fun n => n.commit (o n) effect) s = .next t ∧
      Committed i s t (s.latched i) (o (s.latched i)) effect :=
  ⟨_, neuRegister_ready hready (fun h => nomatch h), committed_finish heff ..⟩

/-- CONST_BITS chooses between two neighbours (spec 44 R301). -/
theorem constReal_cases (e m : Nat) (up : Bool) :
    constReal e m up = packReal false e m ∨ constReal e m up = packReal false e (m + 1) := by
  cases up
  · exact .inl rfl
  · exact .inr rfl

/-- Settles O40: a constant is pushed, and CONST_BITS chooses between two neighbours. -/
theorem constantsArePushed : Obligations.ConstantsArePushed := by
  refine ⟨fun i c s hform hready => ?_, rfl, rfl, constReal_cases .., constReal_cases .., constReal_cases ..,
    constReal_cases .., constReal_cases ..⟩
  obtain ⟨t, hexec, h⟩ := neuRegister_committed (i := i) (o := fun n => n.pushSlot c) hready Npx.pushValue_onlyStack
  exact ⟨t, (exec_constForm s hform).trans hexec, h.frame, h.memory, h.pushes⟩

/-! ## The loads (spec 40 R164, R165, R178 to R184) -/

/-- A load on a ready machine ends in its `commit`, with the bytes of the operand. -/
theorem neuLoad_committed {α : Type} {i : Instr} {m : MemArg} {words : Nat} {dest : Option RegNum} {s : State}
    {o : List Byte → Npx → Out α} {effect : Npx → α → Npx} (hready : Ready s) (hfits : OperandFits s i m words false)
    (hw : words ≠ 0) (heff : ∀ n v, OnlyStackChanges n (effect n v)) :
    ∃ t, neuLoad false i m words dest (fun b n => n.commit (o b n) effect) s = .next t ∧
      Committed i s t (s.latchedMem i m)
        (o ((operandAddresses s i m (2 * words)).map s.mem.read) (s.latchedMem i m)) effect ∧ DataLatched i m s t :=
  ⟨_, neuLoad_ready hready (fun h => nomatch h) hfits hw, committed_finish heff ..,
    dataLatched_of_onlyStackChanges (onlyStackChanges_commit heff ..)⟩

theorem exec_loadForm {i : Instr} {m : MemArg} {words : Nat} {f : Nat → Nat → TempReal} (s : State)
    (h : loadForm i = some (m, words, f)) :
    exec i s = neuLoad false i m words (some 7) (fun b n => n.push (f s.draws (leNat b))) s ∧ words ≠ 0 := by
  cases i with
  | fldM80r | fildM16i | fildM32i | fildM64i | fbldM80d =>
    cases h
    exact ⟨rfl, by decide⟩
  | _ => cases h

theorem exec_realLoadForm {i : Instr} {m : MemArg} {words : Nat} {f : RealFormat} (s : State)
    (h : realLoadForm i = some (m, words, f)) :
    exec i s = neuLoad false i m words (some 7) (fun b n => n.pushSource (loadReal f (leNat b))) s ∧ words ≠ 0 := by
  cases i with
  | fldM32r | fldM64r =>
    cases h
    exact ⟨rfl, by decide⟩
  | _ => cases h

/-- The checks of a load of a short or long real: room first, then D (spec 40 R164). -/
def Npx.sourceSlot (n : Npx) (src : Source) : Out TempReal :=
  if n.isEmpty 7 then if src.denormal then signalBefore n.cw flagD src.value else .pure src.value
  else signalBefore n.cw flagI indefinite

theorem Npx.pushSource_eq_commit (n : Npx) (src : Source) :
    n.pushSource src = n.commit (n.sourceSlot src) Npx.pushValue := by
  unfold Npx.pushSource Npx.sourceSlot
  by_cases h : n.isEmpty 7 = true
  case pos => rw [if_pos h, if_pos h]
  case neg => rw [if_neg h, if_neg h, Npx.push, Npx.pushSlot_full (by simpa using h)]

/-- Settles O48: the bytes of the operand give a value to push, and a short or long real may signal D first. -/
theorem memoryLoads : Obligations.MemoryLoads := by
  refine ⟨fun i m words f s hform hready hfits => ?_, fun i m words f s hform hready hfits => ?_⟩
  · obtain ⟨hexec, hw⟩ := exec_loadForm s hform
    obtain ⟨t, hnext, h, hdata⟩ := neuLoad_committed (dest := some 7)
      (o := fun b n => n.pushSlot (f s.draws (leNat b))) hready hfits hw Npx.pushValue_onlyStack
    exact ⟨t, hexec.trans hnext, h.frame, h.memory, hdata, h.pushes⟩
  · obtain ⟨hexec, hw⟩ := exec_realLoadForm s hform
    obtain ⟨t, hnext, h, hdata⟩ := neuLoad_committed (dest := some 7)
      (o := fun b n => n.sourceSlot (loadReal f (leNat b))) hready hfits hw Npx.pushValue_onlyStack
    simp only [Npx.pushSource_eq_commit] at hexec
    have hslot : ∀ src, (s.latchedMem i m).sourceSlot src = s.npx.sourceSlot src := fun _ => rfl
    rw [hslot] at h
    unfold Npx.sourceSlot at h
    refine ⟨t, hexec.trans hnext, h.frame, h.memory, hdata, fun hroom hden => ?_, fun hroom hden => ?_, fun hfull => ?_⟩
    · rw [if_pos hroom, if_neg (Bool.not_eq_true _ ▸ hden)] at h
      exact h.of_pure rfl pushed_of_pushValue
    · rw [if_pos hroom, if_pos hden] at h
      rw [← masked_flagD]
      exact h.of_signalBefore rfl pushed_of_pushValue
    · rw [if_neg (Bool.not_eq_true _ ▸ hfull)] at h
      exact h.of_invalid rfl pushed_of_pushValue

/-! ## Transfers between registers (spec 40 R163, R170, R173, R185) -/

section
variable {i : Instr} {s t : State} {sel off : Word} {cc : BitVec 4} {v : TempReal} {k : RegNum}

theorem replaced_of_setSt (f : Flags) (h : t.npx = ((s.taken i sel off cc).raise f).setSt k v) : Replaced s t k v := by
  refine ⟨?_, ?_, ?_, fun q hq => ⟨?_, ?_⟩⟩ <;> rw [h]
  · rfl
  · exact Npx.reg_setReg_same ..
  · exact Npx.tag_setReg_same ..
  · exact Npx.reg_setReg_other _ _ _ _ hq
  · exact Npx.tag_setReg_other _ _ _ _ hq

/-- ST(k) for k ≠ 0 is not the top. -/
theorem phys_ne_top (n : Npx) (hk : k ≠ 0) : n.phys k ≠ n.top := fun h => hk (by simpa [Npx.phys] using h)

theorem replacedPopped_of_setSt_pop (f : Flags) (h : t.npx = (((s.taken i sel off cc).raise f).setSt k v).pop) :
    ReplacedPopped s t k v := by
  refine ⟨?_, ?_, ?_, fun hk => ?_, fun q hq => ?_, fun q hq hqtop => ?_⟩ <;> rw [h]
  · rfl
  · exact Npx.reg_setReg_same ..
  · exact Npx.tag_pop_top _
  · refine (Npx.tag_pop_other _ _ ?_).trans (Npx.tag_setReg_same ..)
    exact phys_ne_top s.npx hk
  · exact Npx.reg_setReg_other _ _ _ _ hq
  · refine (Npx.tag_pop_other _ _ ?_).trans (Npx.tag_setReg_other _ _ _ _ hq)
    exact hqtop

end

/-- Reading ST(k) and then checking for room, when either fails, is one invalid operation. -/
theorem Npx.fetch_andThen_pushSlot_invalid {n : Npx} {k : RegNum} (h : n.isEmpty k = true ∨ n.isEmpty 7 = false) :
    (n.fetch k).andThen n.pushSlot = signalBefore n.cw flagI indefinite := by
  cases hk : n.isEmpty k with
  | true =>
    rw [Npx.fetch_empty hk]
    refine signalBefore_andThen _ _ _ _ ?_
    cases hroom : n.isEmpty 7 with
    | true => exact .inl (Npx.pushSlot_room hroom _)
    | false => exact .inr (Npx.pushSlot_full hroom _)
  | false =>
    rw [Npx.fetch_full hk, Out.andThen_pure]
    exact Npx.pushSlot_full (h.resolve_left (by simp [hk])) _

/-- What FLD ST(k) gives. -/
theorem fldSti_completes (p : List Seg) (k : RegNum) {s : State} (hready : Ready s) :
    ∃ t, exec (.fldSti p k) s = .next t ∧ NumericFrame (.fldSti p k) s t ∧ SameMemory s t ∧
      (s.npx.isEmpty k = false → s.npx.isEmpty 7 = true → t.npx.flags = s.npx.flags ∧ Pushed s t (s.npx.st k)) ∧
      (s.npx.isEmpty k = true ∨ s.npx.isEmpty 7 = false → t.npx.flags = s.npx.flags ||| flagI ∧
        (s.npx.cw.getLsbD 0 = true → Pushed s t indefinite) ∧ (s.npx.cw.getLsbD 0 = false → StackKept s t)) := by
  obtain ⟨t, hexec, h⟩ := neuRegister_committed (i := .fldSti p k) (o := fun n => (n.fetch k).andThen n.pushSlot)
    hready Npx.pushValue_onlyStack
  refine ⟨t, hexec, h.frame, h.memory, fun hfull hroom => h.of_pure ?_ pushed_of_pushValue, fun hbad =>
    h.of_invalid (Npx.fetch_andThen_pushSlot_invalid (n := s.latched (.fldSti p k)) hbad) pushed_of_pushValue⟩
  rw [Npx.fetch_full (n := s.latched (.fldSti p k)) hfull, Out.andThen_pure]
  exact Npx.pushSlot_room (n := s.latched (.fldSti p k)) hroom _

/-- What FST ST(k) and FSTP ST(k) give, for a property P of the state that their effect brings about. -/
theorem copyTop_completes {i : Instr} {k : RegNum} {pops : Nat} {s : State} (hready : Ready s)
    (hstack : ∀ n v, OnlyStackChanges n ((Npx.setSt n k v).pops pops)) {P : State → TempReal → Prop}
    (hP : ∀ t v f, t.npx = (((s.latched i).raise f).setSt k v).pops pops → P t v) :
    ∃ t, neuRegister false i (fun n => n.copyTop k pops) s = .next t ∧ NumericFrame i s t ∧ SameMemory s t ∧
      (s.npx.isEmpty 0 = false → t.npx.flags = s.npx.flags ∧ P t (s.npx.st 0)) ∧
      (s.npx.isEmpty 0 = true → t.npx.flags = s.npx.flags ||| flagI ∧
        (s.npx.cw.getLsbD 0 = true → P t indefinite) ∧ (s.npx.cw.getLsbD 0 = false → StackKept s t)) := by
  obtain ⟨t, hexec, h⟩ := neuRegister_committed (i := i) (o := fun n => n.fetch 0) hready hstack
  exact ⟨t, hexec, h.frame, h.memory,
    fun hfull => h.of_pure (Npx.fetch_full (n := s.latched i) hfull) (hP t _),
    fun hempty => h.of_invalid (Npx.fetch_empty (n := s.latched i) hempty) (hP t _)⟩

/-! ## FXCH (spec 40 R185) -/

/-- The values FXCH exchanges, an empty register read as real indefinite where that is masked. -/
def Npx.readBoth (n : Npx) (k : RegNum) : Out (TempReal × TempReal) :=
  (n.fetch 0).andThen fun a => (n.fetch k).andThen fun b => .pure (a, b)

/-- The NPX after the exchange: ST(k) has the first value and the tag of ST, and ST the second and the tag of ST(k). -/
def Npx.exchanged (n : Npx) (k : RegNum) (v : TempReal × TempReal) : Npx :=
  (((n.setSt 0 v.2).setSt k v.1).setTag (n.phys 0) (n.tagFilled k)).setTag (n.phys k) (n.tagFilled 0)

theorem Npx.exchange_eq_commit (n : Npx) (k : RegNum) :
    n.exchange k = n.commit (n.readBoth k) fun n' v => n'.exchanged k v := by
  unfold Npx.exchange Npx.readBoth Npx.commit
  split <;> rfl

theorem Npx.readBoth_full {n : Npx} {k : RegNum} (h0 : n.isEmpty 0 = false) (hk : n.isEmpty k = false) :
    n.readBoth k = .pure (n.st 0, n.st k) := by
  rw [Npx.readBoth, Npx.fetch_full h0, Out.andThen_pure, Npx.fetch_full hk, Out.andThen_pure]

/-- ST(k), or real indefinite where it is empty. -/
def Npx.stOrIndefinite (n : Npx) (k : RegNum) : TempReal := if n.isEmpty k then indefinite else n.st k

theorem Npx.readBoth_invalid {n : Npx} {k : RegNum} (h : n.isEmpty 0 = true ∨ n.isEmpty k = true) :
    n.readBoth k = signalBefore n.cw flagI (n.stOrIndefinite 0, n.stOrIndefinite k) := by
  unfold Npx.readBoth Npx.stOrIndefinite
  cases hk : n.isEmpty k with
  | true =>
    have hread (a : TempReal) :
        ((n.fetch k).andThen fun b => Out.pure (a, b)) = signalBefore n.cw flagI (a, indefinite) := by
      rw [Npx.fetch_empty hk]
      exact signalBefore_andThen _ _ _ _ (.inl rfl)
    simp only [hread]
    cases h0 : n.isEmpty 0 with
    | true =>
      rw [Npx.fetch_empty h0]
      exact signalBefore_andThen _ _ _ _ (.inr rfl)
    | false =>
      rw [Npx.fetch_full h0, Out.andThen_pure]
      rfl
  | false =>
    have h0 := h.resolve_right (by simp [hk])
    simp only [Npx.fetch_full hk, Out.andThen_pure, h0]
    rw [Npx.fetch_empty h0]
    exact signalBefore_andThen _ _ _ _ (.inl rfl)

/-- TOP and every register but ST and ST(k) are kept. -/
structure OthersKept (s t : State) (k : RegNum) : Prop where
  top : t.npx.top = s.npx.top
  others : ∀ q, q ≠ s.npx.top → q ≠ s.npx.top + k → t.npx.reg q = s.npx.reg q ∧ t.npx.tag q = s.npx.tag q

/-- ST has the value b and ST(k) the value a, and each has the other's tag. -/
structure Exchanged (s t : State) (k : RegNum) (a b : TempReal) : Prop where
  first : t.npx.reg (s.npx.phys 0) = b
  second : t.npx.reg (s.npx.phys k) = a
  firstTag : t.npx.tag (s.npx.phys 0) = s.npx.tagFilled k
  secondTag : t.npx.tag (s.npx.phys k) = s.npx.tagFilled 0

theorem othersKept_of_stackKept {s t : State} (h : StackKept s t) (k : RegNum) : OthersKept s t k := by
  refine ⟨h.top, fun q _ _ => ?_⟩
  simp only [Npx.reg, Npx.tag, h.regs, h.tags, and_self]

section
variable {i : Instr} {s t : State} {sel off : Word} {cc : BitVec 4} {k : RegNum} {v : TempReal × TempReal} {f : Flags}

theorem othersKept_of_exchanged (h : t.npx = ((s.taken i sel off cc).raise f).exchanged k v) : OthersKept s t k := by
  refine ⟨(congrArg Npx.top h :), fun q hq hqk => ?_⟩
  have hq0 : q ≠ s.npx.phys 0 := by rwa [Npx.phys_zero]
  rw [h]
  constructor
  · exact (Npx.reg_setReg_other _ _ _ _ hqk).trans (Npx.reg_setReg_other _ _ _ _ hq0)
  · exact (Npx.tag_setTag_other _ _ _ _ hqk).trans <| (Npx.tag_setTag_other _ _ _ _ hq0).trans <|
      (Npx.tag_setReg_other _ _ _ _ hqk).trans (Npx.tag_setReg_other _ _ _ _ hq0)

/-- FXCH of ST with itself exchanges equal values. -/
theorem exchanged_of_exchanged (hv : k = 0 → v.1 = v.2)
    (h : t.npx = ((s.taken i sel off cc).raise f).exchanged k v) : Exchanged s t k v.1 v.2 := by
  by_cases hk : k = 0
  case pos =>
    subst hk
    refine ⟨?_, ?_, ?_, ?_⟩ <;> rw [h]
    · exact (Npx.reg_setReg_same ..).trans (hv rfl)
    · exact Npx.reg_setReg_same ..
    · exact Npx.tag_setTag_same ..
    · exact Npx.tag_setTag_same ..
  case neg =>
    have hne : s.npx.phys 0 ≠ s.npx.phys k := by
      rw [Npx.phys_zero]
      exact (phys_ne_top s.npx hk).symm
    refine ⟨?_, ?_, ?_, ?_⟩ <;> rw [h]
    · exact (Npx.reg_setReg_other _ _ _ _ hne).trans (Npx.reg_setReg_same ..)
    · exact Npx.reg_setReg_same ..
    · exact (Npx.tag_setTag_other _ _ _ _ hne).trans (Npx.tag_setTag_same ..)
    · exact Npx.tag_setTag_same ..

end

theorem Npx.tagFilled_full {n : Npx} {k : RegNum} (h : n.isEmpty k = false) : n.tagFilled k = n.tag (n.phys k) := by
  rw [Npx.tagFilled, if_neg (Bool.not_eq_true _ ▸ h)]

/-- Settles O47, from what each of the four moves reads and writes. -/
theorem registerTransfers : Obligations.RegisterTransfers := by
  intro p k s hready
  refine ⟨fldSti_completes p k hready,
    copyTop_completes (i := .fstSti p k) (pops := 0) hready (fun _ _ => rfl) fun _ _ f h => replaced_of_setSt f h,
    copyTop_completes (i := .fstpSti p k) (pops := 1) hready (fun _ _ => rfl)
      fun _ _ f h => replacedPopped_of_setSt_pop f h, ?_⟩
  obtain ⟨t, hnext, h⟩ := neuRegister_committed (i := .fxchSti p k) (o := fun n => n.readBoth k)
    (effect := fun n v => n.exchanged k v) hready (fun _ _ => rfl)
  simp only [← Npx.exchange_eq_commit] at hnext
  have hothers : OthersKept s t k := by
    cases hv : ((s.latched (.fxchSti p k)).readBoth k).value with
    | none => exact othersKept_of_stackKept (h.ended hv) k
    | some v => exact othersKept_of_exchanged (h.done v hv)
  refine ⟨t, hnext, h.frame, h.memory, hothers.top, hothers.others, fun h0 hk => ?_, fun hbad => ?_⟩
  · obtain ⟨hflags, ⟨hfirst, hsecond, htag, htag'⟩⟩ := h.of_pure
      (Npx.readBoth_full (n := s.latched (.fxchSti p k)) h0 hk) (fun f => exchanged_of_exchanged (by rintro rfl; rfl))
    rw [Npx.tagFilled_full hk, Npx.phys_zero] at htag
    rw [Npx.tagFilled_full h0, Npx.phys_zero] at htag'
    exact ⟨hflags, s.npx.phys_zero ▸ hfirst, hsecond, htag, htag'⟩
  · obtain ⟨hflags, hmasked, hunmasked⟩ := h.of_invalid (Npx.readBoth_invalid (n := s.latched (.fxchSti p k)) hbad)
      (fun f => exchanged_of_exchanged (by rintro rfl; rfl))
    exact ⟨hflags, fun hm => ⟨s.npx.phys_zero ▸ (hmasked hm).first, (hmasked hm).second⟩, hunmasked⟩

end Sys2Proof.Machine
end

section
/-! PROOFS. Stores to memory (spec 40 R171 to R180): the bytes at the operand's addresses, and the pop. -/

namespace Sys2Proof.Machine

open Sys2Proof.Safety

/-! ## Bytes read back (spec 20 R100, R105) -/

/-- Bytes written at distinct addresses are read back. -/
theorem Memory.map_read_writeAll : ∀ (addresses : List Nat) (bytes : List Byte) (m : Memory), addresses.Nodup →
    addresses.length = bytes.length → m.wf = true → addresses.map (m.writeAll (addresses.zip bytes)).read = bytes
  | [], [], _, _, _, _ => rfl
  | a :: rest, b :: bytes, m, hnodup, hlength, hwf => by
    obtain ⟨hnotin, hrest⟩ := List.nodup_cons.mp hnodup
    rw [List.zip_cons_cons, List.map_cons, Memory.writeAll]
    congr 1
    · refine (Memory.read_writeAll_other _ _ _ fun x hx e => hnotin ?_).trans (m.read_write_same a b hwf)
      exact e ▸ (List.of_mem_zip hx).1
    · exact map_read_writeAll rest bytes _ hrest (by simpa using hlength) (m.write_wf a b hwf)

/-- Different offsets of a segment have different addresses. -/
theorem State.physical_injective (s : State) (g : SegReg) {a b : Word} (h : s.physical g a = s.physical g b) :
    a = b := by
  apply BitVec.eq_of_toNat_eq
  have ha := a.isLt
  have hb := b.isLt
  unfold State.physical at h
  split at h <;> omega

/-- The addresses of an operand are distinct. -/
theorem State.addresses_nodup (s : State) (g : SegReg) (off : Word) {n : Nat} (hn : n ≤ 2 ^ 16) :
    (s.addresses g off n).Nodup := by
  refine List.Nodup.map_on (fun j hj k hk h => ?_) List.nodup_range
  have hoff := add_left_cancel (s.physical_injective g h)
  rw [List.mem_range] at hj hk
  have := congrArg BitVec.toNat hoff
  rwa [BitVec.toNat_ofNat, BitVec.toNat_ofNat, Nat.mod_eq_of_lt (by omega), Nat.mod_eq_of_lt (by omega)] at this

@[simp] theorem State.addresses_length (s : State) (g : SegReg) (off : Word) (n : Nat) :
    (s.addresses g off n).length = n := by simp [State.addresses]

@[simp] theorem leBytes_length (n v : Nat) : (leBytes n v).length = n := by simp [leBytes]

/-- A store puts its bytes at the operand's addresses, and leaves every other byte of memory alone. -/
theorem State.storeOperand_leBytes (s : State) (i : Instr) (m : MemArg) {n : Nat} (hn : n ≤ 2 ^ 16) (v : Nat) :
    SameMemoryOutside s (s.storeOperand i m (leBytes n v)) (operandAddresses s i m n) ∧
      (s.mem.wf = true → Stored (s.storeOperand i m (leBytes n v)) (operandAddresses s i m n) (leBytes n v)) := by
  have hout := s.storeOperand_outside i m (leBytes n v)
  rw [leBytes_length] at hout
  refine ⟨hout, fun hwf => ?_⟩
  unfold Stored operandAddresses
  rw [State.storeOperand_mem, leBytes_length]
  exact Memory.map_read_writeAll _ _ _ (s.addresses_nodup _ _ hn) (by simp) hwf

/-! ## The stores -/

theorem storeForm_words {i : Instr} {m : MemArg} {words pops : Nat} {f : Nat → Word → TempReal → Out Nat}
    (h : storeForm i = some (m, words, pops, f)) : words ≠ 0 ∧ words ≤ 5 := by
  cases i with
  | fstM32r | fstM64r | fstpM32r | fstpM64r | fstpM80r | fistM16i | fistM32i | fistpM16i | fistpM32i | fistpM64i
  | fbstpM80d =>
    cases h
    decide
  | _ => cases h

/-- What the pops of a store do to the stack. -/
theorem stackKept_or_popped {i : Instr} {m : MemArg} {s t : State} {pops : Nat} {f : Flags} (hpops : pops ≤ 1)
    (h : t.npx = ((s.latchedMem i m).raise f).pops pops) :
    (pops = 0 ∧ StackKept s t) ∨ (pops = 1 ∧ Popped s t) := by
  obtain rfl | rfl : pops = 0 ∨ pops = 1 := by omega
  · refine .inl ⟨rfl, ?_, ?_, ?_⟩ <;> rw [h] <;> rfl
  · refine .inr ⟨rfl, ?_, ?_, ?_, fun q hq => ?_⟩ <;> rw [h]
    · rfl
    · exact Npx.tag_pop_top _
    · rfl
    · exact Npx.tag_pop_other _ q hq

theorem onlyStackChanges_pops {pops : Nat} (hpops : pops ≤ 1) (n : Npx) : OnlyStackChanges n (n.pops pops) := by
  obtain rfl | rfl : pops = 0 ∨ pops = 1 := by omega
  · rfl
  · rfl

/-- A store on a ready machine is ended by an unmasked exception, or stores its bytes and pops. -/
theorem neuStore_completes {i : Instr} {m : MemArg} {words pops : Nat} {o : Out Nat} {value : Npx → Out Nat} {s : State}
    (hready : Ready s) (hfits : OperandFits s i m words true) (hw : words ≠ 0) (hw' : 2 * words ≤ 2 ^ 16)
    (hpops : pops ≤ 1) (hvalue : value (s.latchedMem i m) = o) :
    ∃ t, neuStore i m words pops value s = .next t ∧ NumericFrame i s t ∧ DataLatched i m s t ∧
      t.npx.flags = s.npx.flags ||| o.flags ∧ (o.value = none → SameMemory s t ∧ StackKept s t) ∧
      ∀ v, o.value = some v → SameMemoryOutside s t (operandAddresses s i m (2 * words)) ∧
        (s.mem.wf = true → Stored t (operandAddresses s i m (2 * words)) (leBytes (2 * words) v)) ∧
        ((pops = 0 ∧ StackKept s t) ∨ (pops = 1 ∧ Popped s t)) := by
  rw [neuStore_ready hready hfits hw, hvalue]
  cases o.value with
  | none =>
    have h : OnlyStackChanges ((s.latchedMem i m).raise o.flags) ((s.latchedMem i m).raise o.flags) := rfl
    obtain ⟨hframe, hflags⟩ := numericFrame_of_onlyStackChanges (s := s)
      (t := s.finish i ((s.latchedMem i m).raise o.flags)) ⟨rfl, rfl⟩ h
    exact ⟨_, rfl, hframe, dataLatched_of_onlyStackChanges h, hflags,
      fun _ => ⟨fun _ => rfl, ⟨rfl, rfl, rfl⟩⟩, fun _ hsome => nomatch hsome⟩
  | some v =>
    have h := onlyStackChanges_pops hpops ((s.latchedMem i m).raise o.flags)
    obtain ⟨hframe, hflags⟩ := numericFrame_of_onlyStackChanges (s := s)
      (t := (s.storeOperand i m (leBytes (2 * words) v)).finish i (((s.latchedMem i m).raise o.flags).pops pops))
      ⟨rfl, rfl⟩ h
    obtain ⟨hout, hstored⟩ := s.storeOperand_leBytes i m hw' v
    refine ⟨_, rfl, hframe, dataLatched_of_onlyStackChanges h, hflags, (fun hnone => nomatch hnone), fun w hsome => ?_⟩
    cases hsome
    exact ⟨hout, hstored, stackKept_or_popped hpops rfl⟩

/-- Settles O52: the outcome of a store is what `storeForm` makes of ST and the control word. -/
theorem memoryStores : Obligations.MemoryStores := by
  intro i m words pops f s hform hready hfits
  obtain ⟨hexec, hpops⟩ := exec_storeForm s hform
  obtain ⟨hw, hw'⟩ := storeForm_words hform
  rw [hexec]
  exact neuStore_completes hready hfits hw (by omega) hpops rfl

end Sys2Proof.Machine
end

section
/-! PROOFS. What a store to memory stores (spec 40 R166 to R169, R176, R180): rounding to the format, and what lies out
of its range. -/

namespace Sys2Proof.Machine

open Sys2Proof.Config (Mag)
open Sys2Proof.Safety (RoundsTo)

/-! ## Rounding to a grid -/

theorem roundsTo_le {rc : Rounding} {neg : Bool} {x : ℚ} {k b : Nat} (h : RoundsTo rc neg x k) (hx : x ≤ b) :
    k ≤ b := by
  have h1 := (abs_lt.mp h.1).1
  have h2 : (k : ℚ) < b + 1 := by linarith
  norm_cast at h2
  omega

theorem le_roundsTo {rc : Rounding} {neg : Bool} {x : ℚ} {k a : Nat} (h : RoundsTo rc neg x k) (hx : a ≤ x) :
    a ≤ k := by
  have h1 := (abs_lt.mp h.1).2
  have h2 : (a : ℚ) < k + 1 := by linarith
  norm_cast at h2
  omega

/-- P is signalled exactly when rounding changed the magnitude (spec 60 R363). -/
theorem flagPIf_roundAt (rc : Rounding) (neg : Bool) {x : Mag} (hd : x.den ≠ 0) (g : Int) :
    flagPIf (roundAt rc neg x g).inexact =
      if ((roundAt rc neg x g).count : ℚ) * (2 : ℚ) ^ g = magVal x then 0 else flagP := by
  have hexact : ((roundAt rc neg x g).count : ℚ) * (2 : ℚ) ^ g = magVal x ↔ ¬(roundAt rc neg x g).inexact = true := by
    rw [roundAt_inexact rc neg hd, not_not, eq_comm, div_eq_iff (by positivity)]
  simp only [hexact, flagPIf]
  cases (roundAt rc neg x g).inexact <;> rfl

/-! ## Magnitudes by the exponent field (spec 11 R66, R67) -/

/-- A magnitude is below the power of two above its exponent. -/
theorem magVal_magOf_lt {r : TempReal} (h : expField r ≠ 0) :
    magVal (magOf r) < (2 : ℚ) ^ ((expField r : Int) - 16382) := by
  rw [magVal_magOf, magOf_exp h, show (expField r : Int) - 16382 = (64 : Nat) + ((expField r : Int) - 16446) by omega,
    zpow_add₀ two_ne_zero, two_zpow_nat]
  exact mul_lt_mul_of_pos_right (by exact_mod_cast sigOf_lt r) (by positivity)

/-- A normal lies at or above the power of two of its exponent, and below the next. -/
theorem magVal_normal_bounds {r : TempReal} (h : classOf r = .normal) :
    (2 : ℚ) ^ ((expField r : Int) - 16383) ≤ magVal (magOf r) ∧
      magVal (magOf r) < (2 : ℚ) ^ ((expField r : Int) - 16383 + 1) := by
  have hbounds := magLog_bounds (x := magOf r) (by
    obtain ⟨_, _, hsig⟩ := classOf_eq_normal_iff.mp h
    rw [magOf_num]
    omega) one_ne_zero
  rwa [magLog_of_normal one_ne_zero h rfl] at hbounds

/-- An unnormal or a pseudo zero: the integer bit is 0 and the exponent field neither 0 nor the largest (spec 11
R67). -/
abbrev Loose (r : TempReal) : Prop := classOf r = .unnormal ∨ classOf r = .pseudoZero

/-- An infinity, a NaN or a denormal. -/
abbrev Special (r : TempReal) : Prop := classOf r = .infinity ∨ classOf r = .nan ∨ classOf r = .denormal

theorem expField_ne_zero_of_finite {r : TempReal} (h : classOf r = .normal ∨ Loose r) : expField r ≠ 0 := by
  intro hexp
  have hclass : classOf r = .zero ∨ classOf r = .denormal := by
    unfold classOf
    rw [if_pos hexp]
    split
    · exact .inl rfl
    · exact .inr rfl
  rcases h with h | h | h <;> simp [h] at hclass

/-! ## What a packed pattern loads as -/

/-- A fraction of all ones and one more carries into the exponent field. -/
theorem packMem_carry (f : RealFormat) (neg : Bool) (e : Nat) :
    packMem f neg e (2 ^ (f.prec - 1)) = packMem f neg (e + 1) 0 := by
  rw [packMem_eq, packMem_eq]
  ring

section
variable {f : RealFormat} (hf : f.Narrow) (neg : Bool)
include hf

theorem packMem_lt {e frac : Nat} (he : e < 2 ^ f.ebits) (hfrac : frac < 2 ^ (f.prec - 1)) :
    packMem f neg e frac < 2 ^ (8 * f.bytes) := by
  have hsign : neg.toNat * 2 ^ f.ebits + e < 2 * 2 ^ f.ebits := by
    have : neg.toNat * 2 ^ f.ebits ≤ 2 ^ f.ebits := by cases neg <;> simp
    omega
  rw [hf.bits, packMem_eq]
  calc (neg.toNat * 2 ^ f.ebits + e) * 2 ^ (f.prec - 1) + frac
      < (neg.toNat * 2 ^ f.ebits + e + 1) * 2 ^ (f.prec - 1) := by rw [Nat.succ_mul]; omega
    _ ≤ 2 * 2 ^ f.ebits * 2 ^ (f.prec - 1) := Nat.mul_le_mul_right _ hsign
    _ = 2 ^ (f.prec - 1 + f.ebits + 1) := by ring

/-- The pattern of c * 2^(l - prec + 1), for c of prec bits and l in the format's range. -/
theorem loadReal_normal_pattern {c : Nat} {l : Int} (hc : 2 ^ (f.prec - 1) ≤ c) (hc' : c < 2 ^ f.prec)
    (hl : 1 - (f.bias : Int) ≤ l) (hl' : l ≤ f.bias) :
    packMem f neg (l + f.bias).toNat (c - 2 ^ (f.prec - 1)) < 2 ^ (8 * f.bytes) ∧
      loadReal f (packMem f neg (l + f.bias).toNat (c - 2 ^ (f.prec - 1))) =
        { value := widened f neg (l + 16383).toNat (c - 2 ^ (f.prec - 1)), denormal := false } ∧
      regVal (widened f neg (l + 16383).toNat (c - 2 ^ (f.prec - 1))) =
        signFactor neg * (c * (2 : ℚ) ^ (l - (f.prec : Int) + 1)) := by
  have hmax := hf.maxField_eq
  have hones := f.maxField_add_one
  have hbias := hf.bias_le
  have hpow := Nat.two_pow_pred_add_two_pow_pred hf.prec_pos
  have he : (l + f.bias).toNat < 2 ^ f.ebits := by omega
  have hfrac : c - 2 ^ (f.prec - 1) < 2 ^ (f.prec - 1) := by omega
  refine ⟨packMem_lt hf neg he hfrac, ?_, ?_⟩
  · rw [loadReal_packMem hf he hfrac, if_neg (by omega), if_neg (by omega),
      show (l + f.bias).toNat + 16383 - f.bias = (l + 16383).toNat by omega]
  · rw [regVal_widened hf hfrac (by omega) (by omega), Nat.cast_sub hc, mul_assoc]
    push_cast
    rw [add_sub_cancel]
    congr 3
    omega

/-- The pattern of k * 2^(2 - bias - prec), for k of less than prec bits or the least normal. -/
theorem loadReal_small_pattern {k : Nat} (hk : k ≤ 2 ^ (f.prec - 1)) :
    packMem f neg 0 k < 2 ^ (8 * f.bytes) ∧
      regVal (loadReal f (packMem f neg 0 k)).value =
        signFactor neg * (k * (2 : ℚ) ^ (2 - (f.bias : Int) - (f.prec : Int))) ∧
      signOf (loadReal f (packMem f neg 0 k)).value = neg := by
  have hprec := hf.prec_pos
  have hbias := hf.bias_pos
  rcases Nat.lt_or_eq_of_le hk with hlt | rfl
  case inl =>
    have he : 0 < 2 ^ f.ebits := by positivity
    refine ⟨packMem_lt hf neg he hlt, ?_⟩
    rw [loadReal_packMem hf he hlt, if_pos rfl]
    by_cases hzero : k = 0
    case pos =>
      subst hzero
      simp [regVal_eq, magVal, zeroOf]
    case neg =>
      rw [if_neg hzero]
      refine ⟨?_, signOf_packReal ..⟩
      rw [regVal_fraction hf hlt, mul_assoc]
      congr 3
      omega
  case inr =>
    have hpow := Nat.two_pow_pred_add_two_pow_pred hprec
    have hpos : 0 < 2 ^ (f.prec - 1) := by positivity
    obtain ⟨hbound, hload, hval⟩ := loadReal_normal_pattern hf neg (c := 2 ^ (f.prec - 1)) (l := 1 - (f.bias : Int))
      le_rfl (by omega) le_rfl (by omega)
    rw [Nat.sub_self, show (1 - (f.bias : Int) + f.bias).toNat = 1 by omega] at hbound hload
    rw [packMem_carry, hload]
    refine ⟨hbound, ?_, signOf_widened ..⟩
    rw [Nat.sub_self] at hval
    refine hval.trans ?_
    congr 3
    omega

end

/-! ## Real stores (spec 40 R166 to R169) -/

section
variable {f : RealFormat} (hf : f.Narrow) (cw : Word) (neg : Bool)
include hf

/-- A count of prec bits, or the power of two above them as its half one binary order up. -/
theorem exists_normalized {k : Nat} (l : Int) (hk : 2 ^ (f.prec - 1) ≤ k) (hk' : k ≤ 2 ^ f.prec) :
    ∃ (c : Nat) (l' : Int), 2 ^ (f.prec - 1) ≤ c ∧ c < 2 ^ f.prec ∧ l ≤ l' ∧
      l' = (if k = 2 ^ f.prec then l + 1 else l) ∧
      c - 2 ^ (f.prec - 1) = (if k = 2 ^ f.prec then 0 else k - 2 ^ (f.prec - 1)) ∧
      (k : ℚ) * (2 : ℚ) ^ (l - (f.prec : Int) + 1) = c * (2 : ℚ) ^ (l' - (f.prec : Int) + 1) := by
  have hpow := Nat.two_pow_pred_add_two_pow_pred hf.prec_pos
  by_cases hcarry : k = 2 ^ f.prec
  case pos =>
    refine ⟨2 ^ (f.prec - 1), l + 1, le_rfl, ?_, by omega, (if_pos hcarry).symm, ?_, ?_⟩
    · have : 0 < 2 ^ (f.prec - 1) := by positivity
      omega
    · rw [if_pos hcarry, Nat.sub_self]
    · have hunit : (2 : ℚ) ^ (l + 1 - (f.prec : Int) + 1) = (2 : ℚ) ^ (l - (f.prec : Int) + 1) * 2 := by
        rw [← zpow_add_one₀ two_ne_zero]
        congr 1
        ring
      rw [hcarry, ← hpow, hunit]
      push_cast
      ring
  case neg =>
    exact ⟨k, l, hk, by omega, le_rfl, (if_neg hcarry).symm, (if_neg hcarry).symm, rfl⟩

/-- A count of prec bits lies, on its grid, between two powers of two. -/
theorem normalized_bounds {c : Nat} (l : Int) (hc : 2 ^ (f.prec - 1) ≤ c) (hc' : c < 2 ^ f.prec) :
    (2 : ℚ) ^ l ≤ c * (2 : ℚ) ^ (l - (f.prec : Int) + 1) ∧
      c * (2 : ℚ) ^ (l - (f.prec : Int) + 1) < (2 : ℚ) ^ (l + 1) := by
  have hprec := hf.prec_pos
  have hlow : (2 : ℚ) ^ l = ((2 ^ (f.prec - 1) : Nat) : ℚ) * (2 : ℚ) ^ (l - (f.prec : Int) + 1) := by
    rw [← two_zpow_nat, ← zpow_add₀ two_ne_zero]
    congr 1
    omega
  have hhigh : (2 : ℚ) ^ (l + 1) = ((2 ^ f.prec : Nat) : ℚ) * (2 : ℚ) ^ (l - (f.prec : Int) + 1) := by
    rw [← two_zpow_nat, ← zpow_add₀ two_ne_zero]
    congr 1
    omega
  rw [hlow, hhigh]
  exact ⟨mul_le_mul_of_nonneg_right (by exact_mod_cast hc) (by positivity),
    mul_lt_mul_of_pos_right (by exact_mod_cast hc') (by positivity)⟩

/-- A magnitude of binary order l rounds to a count of prec bits, or to the power of two above them. -/
theorem roundAt_count_bounds {x : Mag} {l : Int} (hd : x.den ≠ 0) (hlo : (2 : ℚ) ^ l ≤ magVal x)
    (hhi : magVal x < (2 : ℚ) ^ (l + 1)) :
    2 ^ (f.prec - 1) ≤ (roundAt (rounding cw) neg x (l - f.prec + 1)).count ∧
      (roundAt (rounding cw) neg x (l - f.prec + 1)).count ≤ 2 ^ f.prec := by
  have hprec := hf.prec_pos
  have hround := roundAt_roundsTo (rounding cw) neg hd (l - f.prec + 1)
  have hunit : (0 : ℚ) < (2 : ℚ) ^ (l - (f.prec : Int) + 1) := by positivity
  refine ⟨le_roundsTo hround ?_, roundsTo_le hround ?_⟩
  · rwa [le_div_iff₀ hunit, ← two_zpow_nat, ← zpow_add₀ two_ne_zero,
      show ((f.prec - 1 : Nat) : Int) + (l - f.prec + 1) = l by omega]
  · rw [div_le_iff₀ hunit, ← two_zpow_nat, ← zpow_add₀ two_ne_zero,
      show (f.prec : Int) + (l - f.prec + 1) = l + 1 by omega]
    exact hhi.le

/-- A magnitude whose binary order is in range is stored rounded to the significand of the format, or overflows when the
rounded value is too large (spec 40 R166, R168). -/
theorem storeNormal_inRange {x : Mag} {l : Int} (hd : x.den ≠ 0) (hlo : (2 : ℚ) ^ l ≤ magVal x)
    (hhi : magVal x < (2 : ℚ) ^ (l + 1)) (hl : 1 - (f.bias : Int) ≤ l) :
    ∃ k : Nat, RoundsTo (rounding cw) neg (magVal x / (2 : ℚ) ^ (l - (f.prec : Int) + 1)) k ∧
      (k * (2 : ℚ) ^ (l - (f.prec : Int) + 1) < (2 : ℚ) ^ ((f.bias : Int) + 1) → ∃ w, w < 2 ^ (8 * f.bytes) ∧
        storeNormal cw f neg x =
          { flags := if k * (2 : ℚ) ^ (l - (f.prec : Int) + 1) = magVal x then 0 else flagP, value := some w } ∧
        regVal (loadReal f w).value = signFactor neg * (k * (2 : ℚ) ^ (l - (f.prec : Int) + 1)) ∧
        (loadReal f w).denormal = false) ∧
      ((2 : ℚ) ^ ((f.bias : Int) + 1) ≤ k * (2 : ℚ) ^ (l - (f.prec : Int) + 1) →
        storeNormal cw f neg x = storeOverflow cw f neg) := by
  obtain ⟨hk, hk'⟩ := roundAt_count_bounds hf cw neg hd hlo hhi
  have hflag := flagPIf_roundAt (rounding cw) neg hd (l - f.prec + 1)
  obtain ⟨c, l', hc, hc', hll', hl', hfrac, hvalue⟩ := exists_normalized hf l hk hk'
  obtain ⟨hlow, hhigh⟩ := normalized_bounds hf l' hc hc'
  have hstore : storeNormal cw f neg x =
      if (f.bias : Int) < l' then storeOverflow cw f neg
      else .after (flagPIf (roundAt (rounding cw) neg x (l - f.prec + 1)).inexact)
        (packMem f neg (l' + f.bias).toNat (c - 2 ^ (f.prec - 1))) := by
    unfold storeNormal
    simp only [magLog_unique hd hlo hhi, Nat.one_shiftLeft]
    rw [if_neg (by omega), ← hl', ← hfrac]
  refine ⟨_, roundAt_roundsTo (rounding cw) neg hd _, fun hsmall => ?_, fun hlarge => ?_⟩
  · rw [hvalue] at hsmall
    have hrange := (zpow_lt_zpow_iff_right₀ (one_lt_two (α := ℚ))).mp (hlow.trans_lt hsmall)
    obtain ⟨hw, hload, hval⟩ := loadReal_normal_pattern hf neg hc hc' (l := l') (by omega) (by omega)
    refine ⟨_, hw, ?_, ?_, ?_⟩
    · rw [hstore, if_neg (by omega), hflag]
      rfl
    · rw [hload, hvalue]
      exact hval
    · rw [hload]
  · rw [hvalue] at hlarge
    have hrange := (zpow_lt_zpow_iff_right₀ (one_lt_two (α := ℚ))).mp (hlarge.trans_lt hhigh)
    rw [hstore, if_pos (by omega)]

/-- A magnitude below the format's normals is stored rounded to its smallest spacing, with U (spec 40 R168). -/
theorem storeUnderflow_masked {x : Mag} (hd : x.den ≠ 0) (hx : magVal x < (2 : ℚ) ^ (1 - (f.bias : Int)))
    (hm : masked cw flagU = true) :
    ∃ k w : Nat, RoundsTo (rounding cw) neg (magVal x / (2 : ℚ) ^ (2 - (f.bias : Int) - (f.prec : Int))) k ∧
      w < 2 ^ (8 * f.bytes) ∧
      storeUnderflow cw f neg x =
        { flags := flagU ||| (if k * (2 : ℚ) ^ (2 - (f.bias : Int) - (f.prec : Int)) = magVal x then 0 else flagP)
          value := some w } ∧
      regVal (loadReal f w).value = signFactor neg * (k * (2 : ℚ) ^ (2 - (f.bias : Int) - (f.prec : Int))) ∧
      signOf (loadReal f w).value = neg := by
  have hprec := hf.prec_pos
  have hround := roundAt_roundsTo (rounding cw) neg hd (2 - (f.bias : Int) - f.prec)
  have hcount : (roundAt (rounding cw) neg x (2 - (f.bias : Int) - f.prec)).count ≤ 2 ^ (f.prec - 1) := by
    refine roundsTo_le hround ?_
    rw [div_le_iff₀ (by positivity), ← two_zpow_nat, ← zpow_add₀ two_ne_zero,
      show ((f.prec - 1 : Nat) : Int) + (2 - f.bias - f.prec) = 1 - f.bias by omega]
    exact hx.le
  obtain ⟨hw, hval, hsign⟩ := loadReal_small_pattern hf neg hcount
  refine ⟨_, _, hround, hw, ?_, hval, hsign⟩
  unfold storeUnderflow
  rw [if_pos hm, ← flagPIf_roundAt (rounding cw) neg hd]
  rfl

end


/-! ### By class -/

section
variable {cw : Word} {f : RealFormat} {v : TempReal}

theorem storeReal_normal (h : classOf v = .normal) : storeReal cw f v = storeNormal cw f (signOf v) (magOf v) := by
  simp only [storeReal, h]

/-- An unnormal or a pseudo zero, by its exponent: below the format, in its range, or above it (D21 of the spec). -/
theorem storeReal_loose (h : Loose v) :
    storeReal cw f v =
      if (expField v : Int) - 16383 < 1 - (f.bias : Int) then storeUnderflow cw f (signOf v) (magOf v)
      else if (expField v : Int) - 16383 ≤ f.bias then
        signalBefore cw flagI (packMem f true f.maxField (2 ^ (f.prec - 2)))
      else storeOverflow cw f (signOf v) := by
  rw [← Nat.one_shiftLeft]
  rcases h with h | h <;> simp only [storeReal, h]

theorem storeReal_below (h : classOf v = .normal ∨ Loose v) (hl : (expField v : Int) - 16383 < 1 - (f.bias : Int)) :
    storeReal cw f v = storeUnderflow cw f (signOf v) (magOf v) := by
  rcases h with h | h
  · rw [storeReal_normal h, storeNormal, magLog_of_normal one_ne_zero h rfl, if_pos hl]
  · rw [storeReal_loose h, if_pos hl]

theorem storeReal_above (h : Loose v) (hl : (f.bias : Int) < (expField v : Int) - 16383) :
    storeReal cw f v = storeOverflow cw f (signOf v) := by
  rw [storeReal_loose h, if_neg (by omega), if_neg (by omega)]

theorem storeReal_loose_inRange (h : Loose v) (hl : 1 - (f.bias : Int) ≤ (expField v : Int) - 16383)
    (hl' : (expField v : Int) - 16383 ≤ f.bias) :
    storeReal cw f v =
      { flags := flagI
        value := if cw.getLsbD 0 then some (packMem f true f.maxField (2 ^ (f.prec - 2))) else none } := by
  rw [storeReal_loose h, if_neg (by omega), if_pos hl', signalBefore_invalid]

theorem storeReal_of_zero (h : classOf v = .zero) :
    storeReal cw f v = { flags := 0, value := some (packMem f (signOf v) 0 0) } := by
  simp only [storeReal, h]
  rfl

theorem storeReal_special (h : Special v) :
    storeReal cw f v =
      { flags := 0
        value := some (packMem f (signOf v) (if classOf v = .denormal then 0 else f.maxField)
          (sigOf v % 2 ^ 63 / 2 ^ (64 - f.prec))) } := by
  rw [← Nat.shiftRight_eq_div_pow]
  rcases h with h | h | h <;> simp only [storeReal, h] <;> rfl

theorem storeUnderflow_unmasked (neg : Bool) (x : Mag) (hm : masked cw flagU = false) :
    storeUnderflow cw f neg x = { flags := flagU, value := none } := if_neg (by simp [hm])

theorem storeOverflow_eq (cw : Word) (f : RealFormat) (neg : Bool) :
    storeOverflow cw f neg =
      if masked cw flagO then
        { flags := flagO ||| flagP
          value := some (packMem f neg (if overflowToInfinity (rounding cw) neg then f.maxField else f.maxField - 1)
            (if overflowToInfinity (rounding cw) neg then 0 else 2 ^ (f.prec - 1) - 1)) }
      else { flags := flagO, value := none } := by
  unfold storeOverflow
  rw [Nat.one_shiftLeft]
  cases overflowToInfinity (rounding cw) neg <;> rfl

end

/-! ## Integer stores (spec 40 R176) -/

/-- The two's complement pattern of a sign and a magnitude in range. -/
theorem intOf_pattern {w k : Nat} (hw : 0 < w) (neg : Bool) (hk : k < 2 ^ (w - 1) + (if neg then 1 else 0)) :
    (if neg then (2 ^ w - k) % 2 ^ w else k) < 2 ^ w ∧
      intOf w (if neg then (2 ^ w - k) % 2 ^ w else k) = if neg then -(k : Int) else k := by
  have hpow := Nat.two_pow_pred_add_two_pow_pred hw
  have hpos : 0 < 2 ^ (w - 1) := by positivity
  unfold intOf
  rw [Nat.one_shiftLeft, Nat.one_shiftLeft]
  cases neg with
  | false =>
    simp only [Bool.false_eq_true, if_false, Nat.add_zero] at hk ⊢
    exact ⟨by omega, if_pos hk⟩
  | true =>
    simp only [if_true] at hk ⊢
    by_cases hzero : k = 0
    case pos =>
      rw [hzero, Nat.sub_zero, Nat.mod_self, if_pos hpos]
      exact ⟨by omega, rfl⟩
    case neg =>
      rw [Nat.mod_eq_of_lt (by omega), if_neg (by omega)]
      omega

/-- The range test on the magnitude is the one on the integer (D22 of the spec). -/
theorem in_intRange_iff (w k : Nat) (neg : Bool) :
    (-(2 : Int) ^ (w - 1) ≤ (if neg then -(k : Int) else k) ∧ (if neg then -(k : Int) else k) < (2 : Int) ^ (w - 1)) ↔
      k < 2 ^ (w - 1) + (if neg then 1 else 0) := by
  have hcast : (2 : Int) ^ (w - 1) = ((2 ^ (w - 1) : Nat) : Int) := by push_cast; rfl
  have hpos : 0 < 2 ^ (w - 1) := by positivity
  rw [hcast]
  generalize 2 ^ (w - 1) = bound at *
  cases neg <;> simp only [Bool.false_eq_true, if_false, if_true] <;> omega

section
variable {cw : Word} {v : TempReal} (w : Nat)

theorem storeInt_normal (h : classOf v = .normal) (hw : 0 < w) :
    ∃ k : Nat, RoundsTo (rounding cw) (signOf v) (magVal (magOf v)) k ∧
      if -(2 : Int) ^ (w - 1) ≤ (if signOf v then -(k : Int) else k) ∧
          (if signOf v then -(k : Int) else k) < (2 : Int) ^ (w - 1) then
        ∃ u, u < 2 ^ w ∧ intOf w u = (if signOf v then -(k : Int) else k) ∧
          storeInt cw w v = { flags := if (k : ℚ) = magVal (magOf v) then 0 else flagP, value := some u }
      else storeInt cw w v = { flags := flagI, value := if cw.getLsbD 0 then some (2 ^ (w - 1)) else none } := by
  have hround := roundAt_roundsTo (rounding cw) (signOf v) (x := magOf v) one_ne_zero 0
  have hflag := flagPIf_roundAt (rounding cw) (signOf v) (x := magOf v) one_ne_zero 0
  rw [zpow_zero, div_one] at hround
  rw [zpow_zero, mul_one] at hflag
  refine ⟨_, hround, ?_⟩
  simp only [in_intRange_iff, storeInt, h, Nat.one_shiftLeft]
  by_cases hrange : (roundAt (rounding cw) (signOf v) (magOf v) 0).count < 2 ^ (w - 1) + (if signOf v then 1 else 0)
  case pos =>
    obtain ⟨hu, hint⟩ := intOf_pattern hw (signOf v) hrange
    rw [if_pos hrange, if_pos hrange, hflag]
    exact ⟨_, hu, hint, rfl⟩
  case neg =>
    rw [if_neg hrange, if_neg hrange]
    exact signalBefore_invalid ..

theorem storeInt_invalid (h : Special v ∨ Loose v) :
    storeInt cw w v = { flags := flagI, value := if cw.getLsbD 0 then some (2 ^ (w - 1)) else none } := by
  rw [← signalBefore_invalid, ← Nat.one_shiftLeft]
  rcases h with (h | h | h) | h | h <;> simp only [storeInt, h]

theorem storeInt_of_zero (h : classOf v = .zero) : storeInt cw w v = { flags := 0, value := some 0 } := by
  simp only [storeInt, h]
  rfl

end

/-! ## FBSTP (spec 40 R180) -/

theorem toDigits_lt (k n : Nat) : toDigits k n < 16 ^ k := by
  induction k generalizing n with
  | zero => exact Nat.one_pos
  | succ k ih =>
    have := ih (n / 10)
    rw [toDigits, pow_succ]
    omega

/-- The digits of a number are valid and have it as their value, whatever stands above them. -/
theorem digits_of_toDigits (k : Nat) {n : Nat} (above : Nat) (hn : n < 10 ^ k) :
    digitsValid k (16 ^ k * above + toDigits k n) = true ∧ ofDigits k (16 ^ k * above + toDigits k n) = n := by
  induction k generalizing n with
  | zero => exact ⟨rfl, (Nat.lt_one_iff.mp hn).symm⟩
  | succ k ih =>
    obtain ⟨hvalid, hvalue⟩ := ih (n := n / 10) (by rw [pow_succ] at hn; omega)
    have hsplit : 16 ^ (k + 1) * above + toDigits (k + 1) n = n % 10 + 16 * (16 ^ k * above + toDigits k (n / 10)) := by
      rw [toDigits]
      ring
    rw [hsplit, digitsValid, ofDigits]
    generalize 16 ^ k * above + toDigits k (n / 10) = rest at *
    rw [show (n % 10 + 16 * rest) % 16 = n % 10 by omega, show (n % 10 + 16 * rest) / 16 = rest by omega, hvalid,
      hvalue, Bool.and_true, decide_eq_true_eq]
    omega

/-- Half added and the sum chopped rounds the magnitude half away from zero (D23 of the spec). -/
theorem floor_add_half (x : Mag) (hd : x.den ≠ 0) :
    ⌊magVal x + 1 / 2⌋.toNat = (2 * (scaled x 0).1 + (scaled x 0).2) / (2 * (scaled x 0).2) := by
  have hden : ((scaled x 0).2 : ℚ) ≠ 0 := by exact_mod_cast (scaled_den_pos hd 0).ne'
  have hval := scaled_val x 0
  rw [zpow_zero, div_one] at hval
  have hsum : magVal x + 1 / 2 = ((2 * (scaled x 0).1 + (scaled x 0).2 : Nat) : ℚ) / (2 * (scaled x 0).2 : Nat) := by
    rw [← hval]
    push_cast
    field_simp
  rw [hsum, Int.floor_toNat, Nat.floor_div_eq_div]

section
variable {cw : Word} {v : TempReal} (draw : Nat)

theorem storeDecimal_normal (h : classOf v = .normal) :
    if ⌊magVal (magOf v) + 1 / 2⌋.toNat < 10 ^ 18 then
      ∃ u, u < 2 ^ 80 ∧ u / 2 ^ 72 = (if signOf v then 128 else 0) ∧ digitsValid 18 u = true ∧
        ofDigits 18 u = ⌊magVal (magOf v) + 1 / 2⌋.toNat ∧ storeDecimal cw draw v = { flags := 0, value := some u }
    else storeDecimal cw draw v =
      { flags := flagI, value := if cw.getLsbD 0 then some (decimalIndefinite draw) else none } := by
  rw [floor_add_half _ one_ne_zero]
  simp only [storeDecimal, h]
  generalize (2 * (scaled (magOf v) 0).1 + (scaled (magOf v) 0).2) / (2 * (scaled (magOf v) 0).2) = n
  have hdigits := toDigits_lt 18 n
  have hsign : (if signOf v then 1 <<< 79 else 0) = 16 ^ 18 * (if signOf v then 128 else 0) := by
    cases signOf v <;> rfl
  split
  case isTrue hrange =>
    obtain ⟨hvalid, hvalue⟩ := digits_of_toDigits 18 (if signOf v then 128 else 0) hrange
    rw [if_pos (show n ≤ 999999999999999999 by omega), hsign]
    refine ⟨_, ?_, ?_, hvalid, hvalue, rfl⟩
    · split <;> omega
    · split <;> omega
  case isFalse hrange =>
    rw [if_neg (show ¬n ≤ 999999999999999999 by omega), signalBefore_invalid]

theorem storeDecimal_invalid (h : Special v ∨ Loose v) :
    storeDecimal cw draw v =
      { flags := flagI, value := if cw.getLsbD 0 then some (decimalIndefinite draw) else none } := by
  rw [← signalBefore_invalid]
  rcases h with (h | h | h) | h | h <;> simp only [storeDecimal, h]

theorem storeDecimal_of_zero (h : classOf v = .zero) :
    storeDecimal cw draw v = { flags := 0, value := some (if signOf v then 2 ^ 79 else 0) } := by
  simp only [storeDecimal, h]
  rfl

end

/-! ## The statement -/

/-- Settles O53, format by format and class by class. -/
theorem storesOutOfRange : Obligations.StoresOutOfRange := by
  intro cw v
  refine ⟨fun f hformat => ?_, fun h hl hl' => ?_, fun h hl hl' => ?_, fun w hwidth => ?_, fun draw => ?_⟩
  · have hf := narrow_of_memory hformat
    dsimp only
    rw [← storeOverflow_eq]
    refine ⟨fun h hl => ?_, fun h hl => ?_, fun h hl => storeReal_above h hl, storeReal_of_zero, storeReal_special⟩
    · obtain ⟨hlo, hhi⟩ := magVal_normal_bounds h
      rw [storeReal_normal h]
      exact storeNormal_inRange hf cw (signOf v) one_ne_zero hlo hhi hl
    · rw [storeReal_below h hl]
      refine ⟨storeUnderflow_unmasked (signOf v) (magOf v), storeUnderflow_masked hf cw (signOf v) one_ne_zero ?_⟩
      calc magVal (magOf v) < (2 : ℚ) ^ ((expField v : Int) - 16382) := magVal_magOf_lt (expField_ne_zero_of_finite h)
        _ ≤ (2 : ℚ) ^ (1 - (f.bias : Int)) := zpow_le_zpow_right₀ one_le_two (by omega)
  · exact storeReal_loose_inRange h (f := shortReal) (by simp [RealFormat.bias, shortReal]; omega)
      (by simp [RealFormat.bias, shortReal]; omega)
  · exact storeReal_loose_inRange h (f := longReal) (by simp [RealFormat.bias, longReal]; omega)
      (by simp [RealFormat.bias, longReal]; omega)
  · exact ⟨fun h => storeInt_normal w h (by omega), storeInt_invalid w, storeInt_of_zero w⟩
  · exact ⟨storeDecimal_normal draw, storeDecimal_invalid draw, storeDecimal_of_zero draw⟩

end Sys2Proof.Machine
end

section
/-! PROOFS. The arithmetic instructions complete (spec 41): which `commit` each ends in, what it replaces, and what it
leaves alone. -/

namespace Sys2Proof.Machine

open Sys2Proof.Safety
open Sys2Proof.Config (BinOp)

/-! ## Instructions that end in `commit`, precision control and the condition code included -/

section
variable {α : Type} {i : Instr} {s : State} {effect : Npx → α → Npx}

/-- `committed_finish` for an effect that may write the condition code too. -/
theorem committed_finish_withCc (heff : ∀ n v, ∃ c, OnlyStackChanges { n with cc := c } (effect n v)) (o : Out α)
    (sel off : Word) (cc : BitVec 4) :
    Committed i s (s.finish i ((s.taken i sel off cc).commit o effect)) (s.taken i sel off cc) o effect := by
  cases hv : o.value with
  | none =>
    have hcommit : (s.taken i sel off cc).commit o effect = (s.taken i sel off cc).raise o.flags := by
      simp only [Npx.commit, hv]
    rw [hcommit]
    obtain ⟨hframe, hflags⟩ := numericFrame_of_onlyStackChanges (s := s) (f := o.flags)
      (t := s.finish i ((s.taken i sel off cc).raise o.flags)) ⟨rfl, rfl⟩ rfl
    exact ⟨hframe, fun _ => rfl, hflags, fun _ => ⟨rfl, rfl, rfl⟩, fun v hsome => by rw [hv] at hsome; cases hsome⟩
  | some v =>
    have hcommit : (s.taken i sel off cc).commit o effect = effect ((s.taken i sel off cc).raise o.flags) v := by
      simp only [Npx.commit, hv]
    rw [hcommit]
    obtain ⟨c, hstack⟩ := heff ((s.taken i sel off cc).raise o.flags) v
    obtain ⟨hframe, hflags⟩ := numericFrame_of_onlyStackChanges (s := s) (cc := c) (f := o.flags)
      (t := s.finish i (effect ((s.taken i sel off cc).raise o.flags) v)) ⟨rfl, rfl⟩ hstack
    refine ⟨hframe, fun _ => rfl, hflags, fun hnone => ?_, fun w hsome => ?_⟩
    · rw [hv] at hnone
      cases hnone
    · rw [hv] at hsome
      cases hsome
      rfl

/-- A register instruction on a ready machine ends in its `commit`. -/
theorem neuRegister_completes {pc : Bool} {o : Npx → Out α} (hready : Ready s)
    (hpc : pc = true → precisionReserved s.npx.cw = false)
    (heff : ∀ n v, ∃ c, OnlyStackChanges { n with cc := c } (effect n v)) :
    ∃ t, neuRegister pc i (fun n => n.commit (o n) effect) s = .next t ∧
      Committed i s t (s.latched i) (o (s.latched i)) effect :=
  ⟨_, neuRegister_ready hready hpc, committed_finish_withCc heff ..⟩

/-- An instruction with a memory operand, precision control included. -/
theorem neuLoad_completes {pc : Bool} {m : MemArg} {words : Nat} {dest : Option RegNum} {o : List Byte → Npx → Out α}
    (hready : Ready s) (hpc : pc = true → precisionReserved s.npx.cw = false) (hfits : OperandFits s i m words false)
    (hw : words ≠ 0) (heff : ∀ n v, OnlyStackChanges n (effect n v)) :
    ∃ t, neuLoad pc i m words dest (fun b n => n.commit (o b n) effect) s = .next t ∧
      Committed i s t (s.latchedMem i m)
        (o ((operandAddresses s i m (2 * words)).map s.mem.read) (s.latchedMem i m)) effect ∧ DataLatched i m s t :=
  ⟨_, neuLoad_ready hready hpc hfits hw, committed_finish heff ..,
    dataLatched_of_onlyStackChanges (onlyStackChanges_commit heff ..)⟩

end

theorem setSt_onlyStack (k : RegNum) (n : Npx) (v : TempReal) : OnlyStackChanges n (n.setSt k v) := rfl

/-- The effect on ST of every operation with one result: what `commit` writes, ST holds. -/
theorem Committed.replaced {i : Instr} {s t : State} {sel off : Word} {cc : BitVec 4} {o : Out TempReal} {k : RegNum}
    (h : Committed i s t (s.taken i sel off cc) o fun n v => n.setSt k v) {v : TempReal} (hv : o.value = some v) :
    Replaced s t k v := replaced_of_setSt _ (h.done v hv)

theorem replaced_of_stackKept {s t u : State} {k : RegNum} {v : TempReal} (h : Replaced s t k v)
    (hkept : StackKept t u) : Replaced s u k v := by
  have hreg : ∀ q, u.npx.reg q = t.npx.reg q := fun q => by simp only [Npx.reg, hkept.regs]
  have htag : ∀ q, u.npx.tag q = t.npx.tag q := fun q => by simp only [Npx.tag, hkept.tags]
  refine ⟨hkept.top.trans h.top, (hreg _).trans h.value, (htag _).trans h.tag, fun q hq => ?_⟩
  rw [hreg, htag]
  exact h.others q hq

/-! ## The six basic operations (spec 41 R191 to R226) -/

/-- A register form runs `arithReg`, and pops at most once. -/
theorem exec_arithRegForm {i : Instr} {op : BinOp} {rev : Bool} {dst src : RegNum} {pops : Nat} (s : State)
    (h : arithRegForm i = some (op, rev, dst, src, pops)) :
    exec i s = neuRegister true i (Npx.arithReg op rev dst src pops) s ∧ pops ≤ 1 := by
  cases i with
  | faddStSti | faddStiSt | fsubStSti | fsubStiSt | fsubrStSti | fsubrStiSt | fmulStSti | fmulStiSt | fdivStSti
  | fdivStiSt | fdivrStSti | fdivrStiSt =>
    cases h
    exact ⟨rfl, Nat.zero_le 1⟩
  | faddpStiSt | fsubpStiSt | fsubrpStiSt | fmulpStiSt | fdivpStiSt | fdivrpStiSt =>
    cases h
    exact ⟨rfl, Nat.le_refl 1⟩
  | _ => cases h

/-- A memory form runs `arithMem` on the source its bytes give. -/
theorem exec_arithMemForm {i : Instr} {op : BinOp} {rev : Bool} {m : MemArg} {ty : MemType} (s : State)
    (h : arithMemForm i = some (op, rev, m, ty)) :
    exec i s = neuLoad true i m ty.words (some 0) (fun b => Npx.arithMem op rev (ty.source b)) s := by
  cases i with
  | faddM32r | faddM64r | fiaddM16i | fiaddM32i | fsubM32r | fsubM64r | fisubM16i | fisubM32i | fsubrM32r | fsubrM64r
  | fisubrM16i | fisubrM32i | fmulM32r | fmulM64r | fimulM16i | fimulM32i | fdivM32r | fdivM64r | fidivM16i | fidivM32i
  | fdivrM32r | fdivrM64r | fidivrM16i | fidivrM32i =>
    cases h
    rfl
  | _ => cases h

theorem memType_words_ne_zero (ty : MemType) : ty.words ≠ 0 := by cases ty <;> decide

/-- Settles O21: the result goes to the destination, and the popping form pops it. -/
theorem arithmeticRegisterForms : Obligations.ArithmeticRegisterForms := by
  intro i op rev dst src pops s hform hready hpc
  obtain ⟨hexec, hpops⟩ := exec_arithRegForm s hform
  obtain ⟨t, hnext, h⟩ := neuRegister_completes (i := i)
    (o := fun n => (n.fetchSource dst).andThen fun a => (n.fetchSource src).andThen fun b => arith n.cw op rev a b)
    (effect := fun n v => (n.setSt dst v).pops pops) hready (fun _ => hpc)
    fun n v => ⟨n.cc, onlyStackChanges_pops hpops (n.setSt dst v)⟩
  refine ⟨t, hexec.trans hnext, h.frame, h.memory, h.flags, h.ended, fun v hv => ?_⟩
  have hdone := h.done v hv
  obtain rfl | rfl : pops = 0 ∨ pops = 1 := by omega
  · exact .inl ⟨rfl, replaced_of_setSt _ hdone⟩
  · exact .inr ⟨rfl, replacedPopped_of_setSt_pop _ hdone⟩

/-- Settles O22: the bytes of the operand give the source, and the result goes to ST. -/
theorem arithmeticMemoryForms : Obligations.ArithmeticMemoryForms := by
  intro i op rev m ty s hform hready hpc hfits
  obtain ⟨t, hnext, h, hdata⟩ := neuLoad_completes (dest := some 0)
    (o := fun b n => (n.fetchSource 0).andThen fun a => arith n.cw op rev a (ty.source b)) hready (fun _ => hpc) hfits
    (memType_words_ne_zero ty) (setSt_onlyStack 0)
  exact ⟨t, (exec_arithMemForm s hform).trans hnext, h.frame, h.memory, hdata, h.flags, h.ended,
    fun v => h.replaced⟩

/-! ## FSQRT, FRNDINT and F2XM1 (spec 41 R227, R229, 43 R287) -/

theorem classOf_indefinite : classOf indefinite = .nan := by decide

/-- An operation that is invalid on a NaN, on an empty ST: that is invalid, and so is the indefinite it stands for. -/
theorem Npx.fetch_andThen_nan {f : Word → TempReal → Out TempReal}
    (hf : ∀ cw v, classOf v = .nan → f cw v = signalBefore cw flagI v) (n : Npx) :
    (n.fetch 0).andThen (f n.cw) = if n.isEmpty 0 then signalBefore n.cw flagI indefinite else f n.cw (n.st 0) := by
  cases h : n.isEmpty 0 with
  | true =>
    rw [Npx.fetch_empty h]
    exact signalBefore_andThen _ _ _ _ (.inr (hf n.cw _ classOf_indefinite))
  | false =>
    rw [Npx.fetch_full h, Out.andThen_pure]
    rfl

theorem sqrtValue_nan (cw : Word) (v : TempReal) (h : classOf v = .nan) : sqrtValue cw v = signalBefore cw flagI v := by
  simp only [sqrtValue, h]

theorem rndintValue_nan (cw : Word) (v : TempReal) (h : classOf v = .nan) :
    rndintValue cw v = signalBefore cw flagI v := by
  simp only [rndintValue, h]

/-- Each of the three instructions ends in a `commit` to ST of what the statement calls its value. -/
theorem exec_unaryForm {i : Instr} {f : Nat → Word → TempReal → Out TempReal} (s : State) (h : unaryForm i = some f) :
    exec i s = neuRegister (usesPrecision i) i (fun n => n.commit
      (if n.isEmpty 0 then signalBefore n.cw flagI indefinite else f s.draws n.cw (n.st 0))
      fun n v => n.setSt 0 v) s := by
  cases i with
  | fsqrt p =>
    cases h
    simp only [← Npx.fetch_andThen_nan sqrtValue_nan]
    rfl
  | frndint p =>
    cases h
    simp only [← Npx.fetch_andThen_nan rndintValue_nan]
    rfl
  | f2xm1 p =>
    cases h
    rfl
  | _ => cases h

/-- F2XM1 signals U and P at most, in its range by the bound on its value and out of it by the choice of the flags. -/
theorem f2xm1Value_flags (cw : Word) (draw : Nat) (x : TempReal) : (f2xm1Value cw draw x).flags &&& 0b001111#6 = 0 := by
  unfold f2xm1Value
  split
  · exact BitVec.zero_and
  split
  · exact deliverAllowed_flags (flagU ||| flagP) cw _
  · change Config.freeTranscFlags draw &&& (flagU ||| flagP) &&& 0b001111#6 = 0
    rw [BitVec.and_assoc]
    exact BitVec.and_zero

/-- Settles O31, from the `commit` each of the three ends in. -/
theorem unaryForms : Obligations.UnaryForms := by
  intro i f s hform hready hpc
  obtain ⟨t, hnext, h⟩ := neuRegister_completes (i := i)
    (o := fun n => if n.isEmpty 0 then signalBefore n.cw flagI indefinite else f s.draws n.cw (n.st 0)) hready hpc
    fun n v => ⟨n.cc, setSt_onlyStack 0 n v⟩
  refine ⟨⟨t, (exec_unaryForm s hform).trans hnext, h.frame, h.memory, h.flags, h.ended, fun v => h.replaced⟩, ?_⟩
  rintro p rfl hfull
  cases hform
  rw [if_neg (Bool.not_eq_true _ ▸ hfull)]
  exact f2xm1Value_flags ..

/-! ## FABS and FCHS (spec 41 R233, R234) -/

theorem withSign_magnitude (neg : Bool) (r : TempReal) : (withSign neg r).extractLsb' 0 79 = r.extractLsb' 0 79 :=
  BitVec.extractLsb'_append_eq_right

theorem withSign_sign (neg : Bool) (r : TempReal) : (withSign neg r).getLsbD 79 = neg := by
  unfold withSign
  rw [BitVec.getLsbD_append]
  simp

/-- What an instruction that replaces the sign of ST gives. -/
theorem changeSign_completes (f : Bool → Bool) {i : Instr} {s : State} (hready : Ready s) :
    ∃ t, neuRegister false i (Npx.changeSign f) s = .next t ∧ NumericFrame i s t ∧ SameMemory s t ∧
      (s.npx.isEmpty 0 = false → t.npx.flags = s.npx.flags ∧ ∃ v, Replaced s t 0 v ∧
        v.extractLsb' 0 79 = (s.npx.st 0).extractLsb' 0 79 ∧ v.getLsbD 79 = f ((s.npx.st 0).getLsbD 79)) ∧
      (s.npx.isEmpty 0 = true → t.npx.flags = s.npx.flags ||| flagI ∧
        (s.npx.cw.getLsbD 0 = true → Replaced s t 0 indefinite) ∧ (s.npx.cw.getLsbD 0 = false → StackKept s t)) := by
  obtain ⟨t, hnext, h⟩ := neuRegister_completes (pc := false) (i := i)
    (o := fun n => if n.isEmpty 0 then signalBefore n.cw flagI indefinite
      else .pure (withSign (f (signOf (n.st 0))) (n.st 0))) hready (fun h => nomatch h)
    fun n v => ⟨n.cc, setSt_onlyStack 0 n v⟩
  refine ⟨t, hnext, h.frame, h.memory, fun hfull => ?_, fun hempty => h.of_invalid (if_pos hempty) replaced_of_setSt⟩
  obtain ⟨hflags, hreplaced⟩ := h.of_pure (if_neg (Bool.not_eq_true _ ▸ hfull)) replaced_of_setSt
  exact ⟨hflags, _, hreplaced, withSign_magnitude .., withSign_sign ..⟩

/-- Settles O32, by instruction. -/
theorem signInstructions : Obligations.SignInstructions := by
  rintro p s i hready (rfl | rfl)
  · simp only [if_true]
    exact changeSign_completes (fun _ => false) hready
  · simp only [reduceCtorEq, if_false]
    exact changeSign_completes (fun neg => !neg) hready

/-! ## FSCALE and FPREM (spec 41 R228, R231, R232) -/

/-- Settles O35, from the `commit` FSCALE ends in. -/
theorem scaleForm : Obligations.ScaleForm := by
  intro p s hready
  obtain ⟨t, hnext, h⟩ := neuRegister_completes (pc := false) (i := .fscale p)
    (o := fun n => if n.isEmpty 0 || n.isEmpty 1 then signalBefore n.cw flagI indefinite
      else scaleValue n.cw s.draws (n.st 0) (n.st 1)) hready (fun h => nomatch h)
    fun n v => ⟨n.cc, setSt_onlyStack 0 n v⟩
  exact ⟨t, hnext, h.frame, h.memory, h.flags, h.ended, fun v => h.replaced⟩

/-- The effect of FPREM: ST, and the condition code that tells how it ended, from the code before it. -/
def Npx.premEffect (old : BitVec 4) (n : Npx) (v : TempReal × PremEnd) : Npx :=
  { n.setSt 0 v.1 with cc := ccOfPrem old n.cc v.2 }

/-- The condition code by the quotient's three low bits, the older ones shown where it is too small to have them (spec
41 R231). -/
theorem ccOfPrem_complete (old free : BitVec 4) (q : Nat) :
    let cc := ccOfPrem old free (.complete q)
    cc.getLsbD 2 = false ∧ cc.getLsbD 1 = q.testBit 0 ∧
      cc.getLsbD 3 = (if 2 ≤ q then q.testBit 1 else old.getLsbD 1) ∧
      cc.getLsbD 0 = (if 4 ≤ q then q.testBit 2 else old.getLsbD 3) := by
  dsimp only [ccOfPrem]
  by_cases h4 : 4 ≤ q
  case pos => simp only [h4, show 2 ≤ q by omega, if_true, ccOf_c0, ccOf_c1, ccOf_c2, ccOf_c3, and_self]
  case neg =>
    by_cases h2 : 2 ≤ q
    · simp only [h4, h2, if_true, if_false, ccOf_c0, ccOf_c1, ccOf_c2, ccOf_c3, and_self]
    · simp only [h4, h2, if_false, ccOf_c0, ccOf_c1, ccOf_c2, ccOf_c3, and_self]

/-- Settles O37: what FPREM writes is ST and the condition code. -/
theorem remainderForm : Obligations.RemainderForm := by
  intro p s hready
  obtain ⟨t, hnext, h⟩ := neuRegister_completes (pc := false) (i := .fprem p)
    (o := fun n => if n.isEmpty 0 || n.isEmpty 1 then signalBefore n.cw flagI (indefinite, PremEnd.invalid)
      else premValue n.cw (n.st 0) (n.st 1)) (effect := Npx.premEffect s.npx.cc) hready (fun h => nomatch h)
    fun _ _ => ⟨_, rfl⟩
  refine ⟨t, hnext, h.frame, h.memory, h.flags, h.ended, fun v hv => ?_⟩
  have hdone := h.done v hv
  refine ⟨?_, ?_⟩
  · exact replaced_of_stackKept
      (replaced_of_setSt (t := { t with npx := ((s.latched (.fprem p)).raise _).setSt 0 v.1 }) _ rfl)
      ⟨(congrArg Npx.regs hdone :), (congrArg Npx.tags hdone :), (congrArg Npx.top hdone :)⟩
  · obtain ⟨free, hcc⟩ : ∃ free, t.npx.cc = ccOfPrem s.npx.cc free v.2 := ⟨_, (congrArg Npx.cc hdone :)⟩
    rw [hcc]
    cases v.2 with
    | complete q => exact ccOfPrem_complete ..
    | incomplete => exact ccOf_c2 ..
    | invalid => exact ccOf_c2 ..

/-! ## FXTRACT (spec 41 R230) -/

/-- ST is replaced by a and b is pushed: all other registers are kept. -/
structure Extracted (s t : State) (a b : TempReal) : Prop where
  top : t.npx.top = s.npx.top - 1
  exponent : t.npx.reg s.npx.top = a
  exponentTag : t.npx.tag s.npx.top = tagOf a
  significand : t.npx.reg (s.npx.top - 1) = b
  significandTag : t.npx.tag (s.npx.top - 1) = tagOf b
  others : ∀ q, q ≠ s.npx.top → q ≠ s.npx.top - 1 → t.npx.reg q = s.npx.reg q ∧ t.npx.tag q = s.npx.tag q

theorem ne_sub_one (k : RegNum) : k ≠ k - 1 := by revert k; decide

theorem extracted_of_pushValue {i : Instr} {s t : State} {sel off : Word} {cc : BitVec 4} {v : TempReal × TempReal}
    (f : Flags) (h : t.npx = (((s.taken i sel off cc).raise f).setSt 0 v.1).pushValue v.2) : Extracted s t v.1 v.2 := by
  have htop := ne_sub_one s.npx.top
  have hzero : s.npx.top = s.npx.phys 0 := s.npx.phys_zero.symm
  refine ⟨?_, ?_, ?_, ?_, ?_, fun q hq hq' => ⟨?_, ?_⟩⟩ <;> rw [h]
  · rfl
  · refine (Npx.reg_setReg_other _ _ _ _ htop).trans ?_
    rw [hzero]
    exact Npx.reg_setReg_same ..
  · refine (Npx.tag_setReg_other _ _ _ _ htop).trans ?_
    rw [hzero]
    exact Npx.tag_setReg_same ..
  · exact Npx.reg_setReg_same ..
  · exact Npx.tag_setReg_same ..
  · exact (Npx.reg_setReg_other _ _ _ _ hq').trans (Npx.reg_setReg_other _ _ _ _ (hzero ▸ hq))
  · exact (Npx.tag_setReg_other _ _ _ _ hq').trans (Npx.tag_setReg_other _ _ _ _ (hzero ▸ hq))

section
variable (cw : Word) {v : TempReal}

theorem xtractValue_exponent (h : classOf v = .normal ∨ classOf v = .unnormal ∨ classOf v = .pseudoZero) :
    xtractValue cw v = .pure (ofInt ((expField v : Int) - 16383), packReal (signOf v) 0x3FFF (sigOf v)) := by
  rcases h with h | h | h <;> simp only [xtractValue, h]

theorem xtractValue_denormal (h : classOf v = .denormal) :
    xtractValue cw v = .pure (ofInt (-16382), packReal (signOf v) 0x3FFF (sigOf v)) := by
  simp only [xtractValue, h]

/-- The zero of a sign is the only zero of that sign. -/
theorem zeroOf_signOf (h : classOf v = .zero) : zeroOf (signOf v) = v := by
  obtain ⟨hexp, hsig⟩ := classOf_eq_zero_iff.mp h
  have hfields := packReal_fields v
  rwa [hexp, hsig] at hfields

theorem xtractValue_zero (h : classOf v = .zero) : xtractValue cw v = .pure (v, v) := by
  simp only [xtractValue, h, zeroOf_signOf h]

theorem xtractValue_invalid (h : classOf v = .infinity ∨ classOf v = .nan) :
    xtractValue cw v =
      signalBefore cw flagI
        (if classOf v = .nan then v else indefinite, if classOf v = .nan then v else indefinite) := by
  rcases h with h | h <;> simp [xtractValue, h]

end

/-- A normal is its significand, taken with exponent 0, times the power of two of its exponent. -/
theorem regVal_eq_significand_mul {v : TempReal} (h : classOf v = .normal) :
    regVal v = regVal (packReal (signOf v) 0x3FFF (sigOf v)) * (2 : ℚ) ^ ((expField v : Int) - 16383) := by
  obtain ⟨hexp, _, _⟩ := classOf_eq_normal_iff.mp h
  rw [regVal_eq, regVal_eq, signOf_packReal, magVal_magOf, magVal_magOf, magOf_exp hexp.ne',
    magOf_exp (by rw [expField_packReal]; decide), sigOf_packReal, expField_packReal, Nat.mod_eq_of_lt (sigOf_lt v),
    mul_assoc, mul_assoc, ← zpow_add₀ two_ne_zero]
  congr 3
  norm_num
  ring

/-- The checks of FXTRACT, then its two values. -/
def Npx.extracts (n : Npx) : Out (TempReal × TempReal) :=
  (n.fetch 0).andThen fun v =>
    if n.isEmpty 7 then xtractValue n.cw v else signalBefore n.cw flagI (indefinite, indefinite)

theorem Npx.extracts_full {n : Npx} (hfull : n.isEmpty 0 = false) (hroom : n.isEmpty 7 = true) :
    n.extracts = xtractValue n.cw (n.st 0) := by
  rw [Npx.extracts, Npx.fetch_full hfull, Out.andThen_pure, if_pos hroom]

/-- An empty ST, or no room for the second result, is one invalid operation (D27 of the spec). -/
theorem Npx.extracts_stackFault {n : Npx} (h : n.isEmpty 0 = true ∨ n.isEmpty 7 = false) :
    n.extracts = signalBefore n.cw flagI (indefinite, indefinite) := by
  unfold Npx.extracts
  cases hempty : n.isEmpty 0 with
  | true =>
    rw [Npx.fetch_empty hempty]
    refine signalBefore_andThen _ _ _ _ (.inr ?_)
    split
    · rw [xtractValue_invalid _ (.inr classOf_indefinite), if_pos classOf_indefinite]
    · rfl
  | false =>
    have hfull : n.isEmpty 7 = false := h.resolve_left (hempty ▸ Bool.false_ne_true)
    rw [Npx.fetch_full hempty, Out.andThen_pure, hfull, if_neg Bool.false_ne_true]

/-- Settles O39, from the two values of each class and from the stack faults. -/
theorem extractForm : Obligations.ExtractForm := by
  intro p s hready
  obtain ⟨t, hnext, h⟩ := neuRegister_completes (pc := false) (i := .fxtract p) (o := Npx.extracts)
    (effect := fun n v => (n.setSt 0 v.1).pushValue v.2) hready (fun h => nomatch h) fun n _ => ⟨n.cc, rfl⟩
  have hdone : StackKept s t ∨ ∃ a b, Extracted s t a b := by
    cases hv : (s.latched (.fxtract p)).extracts.value with
    | none => exact .inl (h.ended hv)
    | some v => exact .inr ⟨_, _, extracted_of_pushValue _ (h.done v hv)⟩
  have hpure {v : TempReal × TempReal} (ho : (s.latched (.fxtract p)).extracts = .pure v) :=
    h.of_pure (P := Extracted s t v.1 v.2) ho extracted_of_pushValue
  have hinvalid {v : TempReal × TempReal} (ho : (s.latched (.fxtract p)).extracts = signalBefore s.npx.cw flagI v) :=
    h.of_invalid (P := Extracted s t v.1 v.2) ho extracted_of_pushValue
  refine ⟨t, hnext, h.frame, h.memory, fun q hq hq' => ?_, fun htop => ?_, fun hfull hroom => ?_, fun hfault => ?_⟩
  · rcases hdone with hkept | ⟨a, b, hex⟩
    · simp only [Npx.reg, Npx.tag, hkept.regs, hkept.tags, and_self]
    · exact hex.others q hq hq'
  · rcases hdone with hkept | ⟨a, b, hex⟩
    · exact absurd (hkept.top.symm.trans htop) (ne_sub_one _)
    · rw [hex.exponent, hex.significand]
      exact ⟨hex.exponentTag, hex.significandTag⟩
  · have hvalue : (s.latched (.fxtract p)).extracts = xtractValue s.npx.cw (s.npx.st 0) :=
      Npx.extracts_full (n := s.latched (.fxtract p)) hfull hroom
    refine ⟨fun hc => ?_, fun hc => ?_, fun hc => ?_, fun hc => ?_, fun hc => ?_⟩
    · obtain ⟨hflags, hex⟩ := hpure (hvalue.trans (xtractValue_exponent _ hc))
      exact ⟨hflags, hex.top, hex.exponent, hex.significand⟩
    · obtain ⟨_, hex⟩ := hpure (hvalue.trans (xtractValue_exponent _ (.inl hc)))
      rw [hex.significand]
      exact regVal_eq_significand_mul hc
    · obtain ⟨hflags, hex⟩ := hpure (hvalue.trans (xtractValue_denormal _ hc))
      exact ⟨hflags, hex.top, hex.exponent, hex.significand⟩
    · obtain ⟨hflags, hex⟩ := hpure (hvalue.trans (xtractValue_zero _ hc))
      exact ⟨hflags, hex.top, hex.exponent, hex.significand⟩
    · obtain ⟨hflags, hmasked, hunmasked⟩ := hinvalid (hvalue.trans (xtractValue_invalid _ hc))
      exact ⟨hflags, fun hm => ⟨(hmasked hm).top, (hmasked hm).exponent, (hmasked hm).significand⟩, hunmasked⟩
  · obtain ⟨hflags, hmasked, hunmasked⟩ := hinvalid (Npx.extracts_stackFault (n := s.latched (.fxtract p)) hfault)
    exact ⟨hflags, fun hm => ⟨(hmasked hm).top, (hmasked hm).exponent, (hmasked hm).significand⟩, hunmasked⟩

end Sys2Proof.Machine
end

section
/-! PROOFS. The delivery of an exact result to a register (spec 41 R193): rounding to the precision, underflow and
overflow; and division by zero (spec 41 R216). -/

namespace Sys2Proof.Machine

open Sys2Proof.Config (Mag UnnormalChoice)
open Sys2Proof.Safety (RoundsTo)

/-! ## In range of a normal -/

/-- The precisions of PC are widths of formats. -/
theorem exists_narrow {p : Nat} (hp : p = 24 ∨ p = 53 ∨ p = 64) : ∃ f : RealFormat, f.Narrow ∧ f.prec = p := by
  rcases hp with rfl | rfl | rfl
  · exact ⟨shortReal, narrow_of_memory (.inl rfl), rfl⟩
  · exact ⟨longReal, narrow_of_memory (.inr rfl), rfl⟩
  · exact ⟨{ prec := 64, ebits := 8 }, by constructor <;> decide, rfl⟩

/-- r is the normal of a sign and a magnitude, with no significand bit below the precision p. -/
structure IsNormal (p : Nat) (neg : Bool) (m : ℚ) (r : TempReal) : Prop where
  normal : classOf r = .normal
  sign : signOf r = neg
  low : sigOf r % 2 ^ (64 - p) = 0
  value : magVal (magOf r) = m

section
variable {f : RealFormat} (hf : f.Narrow) (neg : Bool)
include hf

/-- The register of a count of prec bits and a binary order that the exponent field can hold. -/
theorem isNormal_packReal {c : Nat} {l : Int} (hc : 2 ^ (f.prec - 1) ≤ c) (hc' : c < 2 ^ f.prec) (hl : -16382 ≤ l)
    (hl' : l < 16384) :
    IsNormal f.prec neg (c * (2 : ℚ) ^ (l - (f.prec : Int) + 1))
      (packReal neg (l + 16383).toNat (c * 2 ^ (64 - f.prec))) := by
  have hE : 0 < (l + 16383).toNat := by omega
  have hE' : (l + 16383).toNat < 0x7FFF := by omega
  have hval := regVal_packReal_left neg hE (by omega) hf.prec_le hc'
  refine ⟨classOf_packReal_left neg hE hE' hf.prec_le hf.prec_pos hc' hc, signOf_packReal .., ?_, ?_⟩
  · rw [sigOf_packReal_left neg _ hf.prec_le hc', Nat.mul_mod_left]
  · rw [regVal_eq, signOf_packReal, mul_assoc] at hval
    rw [mul_left_cancel₀ (signFactor_ne_zero neg) hval]
    congr 2
    omega

/-- `packNormal` by the count that has the width of the precision. -/
theorem packNormal_eq {k c : Nat} {l l' : Int} (hl : l' = if k = 2 ^ f.prec then l + 1 else l)
    (hk : 2 ^ (f.prec - 1) ≤ k) (hc : 2 ^ (f.prec - 1) ≤ c)
    (hfrac : c - 2 ^ (f.prec - 1) = if k = 2 ^ f.prec then 0 else k - 2 ^ (f.prec - 1)) :
    packNormal neg f.prec l k = packReal neg (l' + 16383).toNat (c * 2 ^ (64 - f.prec)) := by
  have := hf.prec_pos
  have := hf.prec_le
  unfold packNormal
  rw [Nat.one_shiftLeft, Nat.shiftLeft_eq]
  by_cases hcarry : k = 2 ^ f.prec
  case pos =>
    rw [if_pos hcarry] at hl hfrac ⊢
    obtain rfl : c = 2 ^ (f.prec - 1) := by omega
    rw [← pow_add, show f.prec - 1 + (64 - f.prec) = 63 by omega, hl, add_assoc]
    rfl
  case neg =>
    rw [if_neg hcarry] at hl hfrac ⊢
    obtain rfl : c = k := by omega
    rw [hl]

/-- A magnitude of binary order l, not below that of the least normal, is delivered rounded to the precision, or
overflows when the rounded value is too large. -/
theorem deliver_inRange (cw : Word) {x : Mag} {l : Int} (hd : x.den ≠ 0) (hlo : (2 : ℚ) ^ l ≤ magVal x)
    (hhi : magVal x < (2 : ℚ) ^ (l + 1)) (hl : -16382 ≤ l) :
    ∃ k : Nat, RoundsTo (rounding cw) neg (magVal x / (2 : ℚ) ^ (l - (f.prec : Int) + 1)) k ∧
      (k * (2 : ℚ) ^ (l - (f.prec : Int) + 1) < (2 : ℚ) ^ (16384 : Int) →
        ∃ r, deliver cw f.prec neg x =
            { flags := if k * (2 : ℚ) ^ (l - (f.prec : Int) + 1) = magVal x then 0 else flagP, value := some r } ∧
          IsNormal f.prec neg (k * (2 : ℚ) ^ (l - (f.prec : Int) + 1)) r) ∧
      ((2 : ℚ) ^ (16384 : Int) ≤ k * (2 : ℚ) ^ (l - (f.prec : Int) + 1) →
        deliver cw f.prec neg x = deliverOverflow cw neg x (largestOf neg)) := by
  obtain ⟨hk, hk'⟩ := roundAt_count_bounds hf cw neg hd hlo hhi
  obtain ⟨c, l', hc, hc', hll', hl', hfrac, hvalue⟩ := exists_normalized hf l hk hk'
  obtain ⟨hlow, hhigh⟩ := normalized_bounds hf l' hc hc'
  have hdeliver : deliver cw f.prec neg x =
      if 16384 ≤ l' then deliverOverflow cw neg x (largestOf neg)
      else .after (flagPIf (roundAt (rounding cw) neg x (l - f.prec + 1)).inexact)
        (packReal neg (l' + 16383).toNat (c * 2 ^ (64 - f.prec))) := by
    unfold deliver
    simp only [magLog_unique hd hlo hhi, Nat.one_shiftLeft]
    rw [if_neg (by omega), ← hl', packNormal_eq hf neg hl' hk hc hfrac]
  refine ⟨_, roundAt_roundsTo (rounding cw) neg hd _, fun hsmall => ?_, fun hlarge => ?_⟩
  · rw [hvalue] at hsmall
    have hrange := (zpow_lt_zpow_iff_right₀ (one_lt_two (α := ℚ))).mp (hlow.trans_lt hsmall)
    refine ⟨_, ?_, hvalue ▸ isNormal_packReal hf neg hc hc' (by omega) hrange⟩
    rw [hdeliver, if_neg (by omega), flagPIf_roundAt (rounding cw) neg hd]
    rfl
  · rw [hvalue] at hlarge
    have hrange := (zpow_lt_zpow_iff_right₀ (one_lt_two (α := ℚ))).mp (hlarge.trans_lt hhigh)
    rw [hdeliver, if_pos (by omega)]

end

/-- An overflow signals O, masked P too; masked it gives infinity or the finite number the model is given. -/
theorem deliverOverflow_eq (cw : Word) (neg : Bool) (x : Mag) (big : TempReal) :
    deliverOverflow cw neg x big =
      if masked cw flagO then
        { flags := flagO ||| flagP,
          value := some (if overflowToInfinity (rounding cw) neg then infinityOf neg else big) }
      else { flags := flagO, value := some (Config.unmaskedOU neg x cw) } := rfl

theorem deliverOverflow_flagO (cw : Word) (neg : Bool) (x : Mag) (big : TempReal) :
    (deliverOverflow cw neg x big).flags &&& flagO ≠ 0 := by
  rw [deliverOverflow_eq]
  split
  · exact (by decide : (flagO ||| flagP) &&& flagO ≠ 0)
  · exact (by decide : flagO &&& flagO ≠ 0)

/-- Settles O26: without O the delivery is the rounded normal. -/
theorem precisionFlagMeansInexact : Obligations.PrecisionFlagMeansInexact := by
  intro cw p neg x l hp hd hlo hhi hl hflag
  obtain ⟨f, hf, rfl⟩ := exists_narrow hp
  obtain ⟨k, hround, hsmall, hlarge⟩ := deliver_inRange hf neg cw hd hlo hhi hl
  have hrange := not_le.mp fun h => deliverOverflow_flagO cw neg x (largestOf neg) (hlarge h ▸ hflag)
  obtain ⟨r, hdeliver, hr⟩ := hsmall hrange
  rw [hdeliver]
  exact ⟨r, k, rfl, hr.normal, hr.sign, hr.low, hround, hr.value, rfl⟩

/-! ## Underflow and overflow -/

/-- The fields and the magnitude of a register below or at the least normal. -/
theorem magVal_packReal_small (neg : Bool) {e sig : Nat} (he : e ≤ 1) (hsig : sig < 2 ^ 64) :
    magVal (magOf (packReal neg e sig)) = sig * (2 : ℚ) ^ (-16445 : Int) := by
  have hexp : (magOf (packReal neg e sig)).exp = -16445 := by
    obtain rfl | rfl : e = 0 ∨ e = 1 := by omega
    · simp [magOf]
    · simp [magOf]
  rw [magVal_magOf, hexp, sigOf_packReal, Nat.mod_eq_of_lt hsig]

/-- The register that holds a multiple sig of 2^-16445, up to the least normal. -/
def packSmall (neg : Bool) (sig : Nat) : TempReal := packReal neg (if sig = 0x8000000000000000 then 1 else 0) sig

theorem packSmall_fields (neg : Bool) {sig : Nat} (h : sig ≤ 2 ^ 63) :
    signOf (packSmall neg sig) = neg ∧
      (expField (packSmall neg sig) = 0 ∨ (expField (packSmall neg sig) = 1 ∧ sigOf (packSmall neg sig) = 2 ^ 63)) ∧
      magVal (magOf (packSmall neg sig)) = sig * (2 : ℚ) ^ (-16445 : Int) := by
  refine ⟨signOf_packReal .., ?_, magVal_packReal_small neg (by split <;> omega) (by omega)⟩
  unfold packSmall
  rw [expField_packReal, sigOf_packReal]
  split
  case isTrue heq => exact .inr ⟨rfl, by rw [heq]; rfl⟩
  case isFalse => exact .inl rfl

/-- A masked underflow rounds to a spacing not below that of the denormals, up to the least normal (spec 41 R193
(a)). -/
theorem deliverUnderflow_masked {cw : Word} {p : Nat} (hp : 0 < p) (neg : Bool) {x : Mag} {l : Int} (hd : x.den ≠ 0)
    (hlo : (2 : ℚ) ^ l ≤ magVal x) (hhi : magVal x < (2 : ℚ) ^ (l + 1)) (hl : l < -16382)
    (hm : masked cw flagU = true) :
    ∃ (r : TempReal) (k : Nat), signOf r = neg ∧ (expField r = 0 ∨ (expField r = 1 ∧ sigOf r = 2 ^ 63)) ∧
      RoundsTo (rounding cw) neg (magVal x / (2 : ℚ) ^ max (-16445) (l - (p : Int) + 1)) k ∧
      magVal (magOf r) = k * (2 : ℚ) ^ max (-16445) (l - (p : Int) + 1) ∧
      deliverUnderflow cw p neg x =
        { flags := flagU ||| (if k * (2 : ℚ) ^ max (-16445) (l - (p : Int) + 1) = magVal x then 0 else flagP)
          value := some r } := by
  have hdeliver : deliverUnderflow cw p neg x =
      .after (flagU ||| flagPIf (roundAt (rounding cw) neg x (max (-16445) (l - p + 1))).inexact)
        (packSmall neg ((roundAt (rounding cw) neg x (max (-16445) (l - p + 1))).count <<<
          (max (-16445) (l - p + 1) + 16445).toNat)) := by
    unfold deliverUnderflow
    rw [if_pos hm, magLog_unique hd hlo hhi]
    rfl
  rw [flagPIf_roundAt (rounding cw) neg hd] at hdeliver
  have hround := roundAt_roundsTo (rounding cw) neg hd (max (-16445) (l - p + 1))
  have hgrid : -16445 ≤ max (-16445) (l - p + 1) ∧ max (-16445) (l - p + 1) ≤ -16382 := by omega
  generalize max (-16445) (l - (p : Int) + 1) = g at *
  obtain ⟨j, rfl⟩ : ∃ j : Nat, g = j - 16445 := ⟨(g + 16445).toNat, by omega⟩
  have hcount : (roundAt (rounding cw) neg x (j - 16445)).count ≤ 2 ^ (63 - j) := by
    refine roundsTo_le hround ?_
    rw [div_le_iff₀ (by positivity), ← two_zpow_nat, ← zpow_add₀ two_ne_zero,
      show ((63 - j : Nat) : Int) + (j - 16445) = -16382 by omega]
    exact hhi.le.trans (zpow_le_zpow_right₀ one_le_two (by omega))
  have hsig : (roundAt (rounding cw) neg x (j - 16445)).count * 2 ^ j ≤ 2 ^ 63 := by
    calc _ ≤ 2 ^ (63 - j) * 2 ^ j := Nat.mul_le_mul_right _ hcount
      _ = 2 ^ 63 := by rw [← pow_add, show 63 - j + j = 63 by omega]
  rw [show ((j : Int) - 16445 + 16445).toNat = j by omega, Nat.shiftLeft_eq] at hdeliver
  obtain ⟨hsign, hfields, hvalue⟩ := packSmall_fields neg hsig
  refine ⟨_, _, hsign, hfields, hround, ?_, hdeliver⟩
  rw [hvalue, Nat.cast_mul, ← two_zpow_nat, mul_assoc, ← zpow_add₀ two_ne_zero, sub_eq_add_neg]

/-- Settles O27: the test for underflow is made on the exact magnitude, that for overflow on the rounded one. -/
theorem underflowAndOverflow : Obligations.UnderflowAndOverflow := by
  intro cw p neg x l hp hd hlo hhi
  refine ⟨fun hl => ?_, fun hl => ?_⟩
  · have hdeliver : deliver cw p neg x = deliverUnderflow cw p neg x := by
      unfold deliver
      rw [magLog_unique hd hlo hhi, if_pos hl]
    rw [hdeliver]
    refine ⟨fun hm => ?_, fun hm => ?_⟩
    · rw [deliverUnderflow, if_neg (hm ▸ Bool.false_ne_true)]
      exact ⟨rfl, rfl⟩
    · have hp_pos : 0 < p := by omega
      obtain ⟨r, k, hsign, hfields, hround, hvalue, hout⟩ := deliverUnderflow_masked hp_pos neg hd hlo hhi hl hm
      rw [hout]
      exact ⟨r, k, rfl, hsign, hfields, hround, hvalue, rfl⟩
  · obtain ⟨f, hf, rfl⟩ := exists_narrow hp
    obtain ⟨k, hround, hsmall, hlarge⟩ := deliver_inRange hf neg cw hd hlo hhi hl
    refine ⟨k, hround, fun h => ?_, fun h => ?_⟩
    · obtain ⟨r, hdeliver, _⟩ := hsmall h
      rw [hdeliver]
      dsimp only
      split <;> decide
    · rw [hlarge h, deliverOverflow_eq]
      refine ⟨fun hm => ?_, fun hm => ?_⟩
      · rw [if_neg (hm ▸ Bool.false_ne_true)]
        exact ⟨rfl, rfl⟩
      · rw [if_pos hm]
        refine ⟨rfl, ?_⟩
        cases rounding cw <;> cases neg <;> rfl

/-! ## Division by zero, and invalid divisions (spec 41 R216) -/

@[simp] theorem masked_flagZ (cw : Word) : masked cw flagZ = cw.getLsbD 2 := masked_twoPow cw (k := 2) (by decide)

/-- The divisors that make a division invalid: a denormal counts as an unnormal. -/
theorem kindOf_invalidDivisor {b : TempReal}
    (h : classOf b = .denormal ∨ classOf b = .unnormal ∨ classOf b = .pseudoZero) :
    kindOf b = .unnormal ∨ kindOf b = .pseudoZero := by
  rcases h with h | h | h <;> simp [kindOf, h]

section
variable (cw : Word) {n d : TempReal} (ch : UnnormalChoice)

theorem divValues_normal_zero (hn : kindOf n = .normal) (hd : kindOf d = .zero) :
    divValues cw n d ch = signalBefore cw flagZ (infinityOf (signOf n != signOf d)) := by
  simp only [divValues, hn, hd]

theorem divValues_zeros (hn : kindOf n = .zero) (hd : kindOf d = .zero) :
    divValues cw n d ch = signalBefore cw flagI indefinite := by simp only [divValues, hn, hd]

theorem divValues_invalidDivisor (hd : kindOf d = .unnormal ∨ kindOf d = .pseudoZero) :
    divValues cw n d ch = signalBefore cw flagI indefinite := by
  rcases hd with hd | hd
  · simp only [divValues, hd]
  · simp only [divValues, hd]

/-- The division after the check for a denormal dividend. -/
theorem arithUndenormal_div_invalid {a b : TempReal} (ha : classOf a ≠ .nan) (hb : classOf b ≠ .nan)
    (h : ∀ ch, divValues cw a b ch = signalBefore cw flagI indefinite) :
    arithUndenormal cw .div false a b =
      { flags := flagI, value := if cw.getLsbD 0 then some indefinite else none } := by
  rw [arithUndenormal_values cw .div false ha hb, ← signalBefore_invalid]
  exact h _

end

/-- A divisor that makes a division invalid is no NaN. -/
theorem not_nan_of_invalidDivisor {b : TempReal}
    (h : classOf b = .denormal ∨ classOf b = .unnormal ∨ classOf b = .pseudoZero) : classOf b ≠ .nan := by
  rcases h with h | h | h <;> simp [h]

/-- Only a denormal dividend is used by a division (spec 41 R192). -/
theorem denormalUsed_div (a b : TempReal) :
    denormalUsed .div false (ofReg a) (ofReg b) = decide (classOf a = .denormal) := rfl

/-- Settles O28, from the kinds of the two operands; a denormal dividend signals D first. -/
theorem divisionByZero : Obligations.DivisionByZero := by
  intro cw a b
  refine ⟨fun ha hb => ?_, fun h => ?_, fun ha hb => ?_⟩
  · rw [arith_registers cw .div false (passes_of_normal ha) (passes_of_zero hb), ← masked_flagZ]
    exact divValues_normal_zero cw _ (kindOf_normal ha) (kindOf_zero hb)
  · have hdividend : classOf a ≠ .denormal ∧ classOf a ≠ .nan ∧ classOf b ≠ .nan := by
      rcases h with ⟨ha, hb⟩ | ⟨ha, hb⟩ | ⟨hnan, hden, hb⟩
      · simp [ha, hb]
      · simp [ha, hb]
      · exact ⟨hden, hnan, not_nan_of_invalidDivisor hb⟩
    obtain ⟨hden, ha, hb⟩ := hdividend
    rw [arith_of_not_denormalUsed (by rw [denormalUsed_div, decide_eq_false hden])]
    refine arithUndenormal_div_invalid cw ha hb fun ch => ?_
    rcases h with ⟨ha, hb⟩ | ⟨ha, hb⟩ | ⟨_, _, hb⟩
    · exact divValues_zeros cw ch (kindOf_zero ha) (kindOf_zero hb)
    · exact divValues_infinities cw ch (kindOf_infinity ha) (kindOf_infinity hb)
    · exact divValues_invalidDivisor cw ch (kindOf_invalidDivisor hb)
  · have hused : denormalUsed .div false (ofReg a) (ofReg b) = true := by rw [denormalUsed_div, decide_eq_true ha]
    cases hm : cw.getLsbD 1 with
    | false => exact arith_denormal_unmasked hused hm
    | true =>
      rw [arith_denormal_masked hused hm, ofReg_value, ofReg_value,
        arithUndenormal_div_invalid cw (by simp [ha]) (not_nan_of_invalidDivisor hb)
          fun ch => divValues_invalidDivisor cw ch (kindOf_invalidDivisor hb), BitVec.or_comm]
      rfl

end Sys2Proof.Machine
end

section
/-! PROOFS. The square root (spec 41 R227): the magnitude that stands for the root rounds as the root does. -/

namespace Sys2Proof.Machine

open Sys2Proof.Config (Mag)
open Sys2Proof.Safety (RoundsTo)

/-! ## The integer square root -/

/-- The bits from k - 1 down complete a root that is right above them. -/
theorem isqrtFrom_bounds (k n s : Nat) (hs : s * s ≤ n) (hn : n < (s + 2 ^ k) * (s + 2 ^ k)) :
    isqrtFrom k n s * isqrtFrom k n s ≤ n ∧ n < (isqrtFrom k n s + 1) * (isqrtFrom k n s + 1) := by
  induction k generalizing s with
  | zero => exact ⟨hs, hn⟩
  | succ k ih =>
    rw [isqrtFrom, Nat.one_shiftLeft]
    split
    case isTrue h =>
      refine ih _ h ?_
      rwa [pow_succ, mul_two, ← add_assoc] at hn
    case isFalse h => exact ih _ hs (not_le.mp h)

theorem isqrtFrom_eq_sqrt {k n : Nat} (hn : n < 2 ^ k * 2 ^ k) : isqrtFrom k n 0 = n.sqrt :=
  Nat.eq_sqrt.mpr (isqrtFrom_bounds k n 0 (Nat.zero_le n) (by rwa [Nat.zero_add]))

/-! ## The magnitude that stands for the root -/

/-- x compares with each multiple of w as the square root of v does. -/
structure ActsAsRoot (x v w : ℚ) : Prop where
  le_iff : ∀ a : Nat, a * w ≤ x ↔ (a * w) ^ 2 ≤ v
  ge_iff : ∀ a : Nat, x ≤ a * w ↔ v ≤ (a * w) ^ 2

theorem ActsAsRoot.coarser {x v w : ℚ} (h : ActsAsRoot x v w) (j : Nat) : ActsAsRoot x v (j * w) := by
  refine ⟨fun a => ?_, fun a => ?_⟩
  · have := h.le_iff (a * j)
    rwa [Nat.cast_mul, mul_assoc] at this
  · have := h.ge_iff (a * j)
    rwa [Nat.cast_mul, mul_assoc] at this

theorem ActsAsRoot.coarser_zpow {x v : ℚ} {g g' : Int} (h : ActsAsRoot x v ((2 : ℚ) ^ g)) (hg : g ≤ g') :
    ActsAsRoot x v ((2 : ℚ) ^ g') := by
  have hscale : (2 : ℚ) ^ g' = ((2 ^ (g' - g).toNat : Nat) : ℚ) * (2 : ℚ) ^ g := by
    rw [← two_zpow_nat, ← zpow_add₀ two_ne_zero, Int.toNat_of_nonneg (by omega), sub_add_cancel]
  rw [hscale]
  exact h.coarser _

theorem ActsAsRoot.eq_iff {x v w : ℚ} (h : ActsAsRoot x v w) (a : Nat) : a * w = x ↔ (a * w) ^ 2 = v := by
  rw [le_antisymm_iff, le_antisymm_iff, h.le_iff, h.ge_iff]

theorem ActsAsRoot.lt_iff {x v w : ℚ} (h : ActsAsRoot x v w) (a : Nat) : a * w < x ↔ (a * w) ^ 2 < v := by
  rw [← not_le, ← not_le, h.ge_iff]

theorem ActsAsRoot.gt_iff {x v w : ℚ} (h : ActsAsRoot x v w) (a : Nat) : x < a * w ↔ v < (a * w) ^ 2 := by
  rw [← not_le, ← not_le, h.le_iff]

/-- The root of n with a sticky bit below it. -/
def stickyRoot (n : Nat) : Nat := 2 * n.sqrt + if n.sqrt * n.sqrt = n then 0 else 1

theorem double_le_stickyRoot_iff (a n : Nat) : 2 * a ≤ stickyRoot n ↔ a * a ≤ n := by
  rw [← Nat.le_sqrt, stickyRoot]
  split <;> omega

theorem stickyRoot_le_double_iff (a n : Nat) : stickyRoot n ≤ 2 * a ↔ n ≤ a * a := by
  have hroot := Nat.sqrt_le n
  unfold stickyRoot
  by_cases hsq : n.sqrt * n.sqrt = n
  case pos =>
    rw [if_pos hsq, Nat.add_zero, Nat.mul_le_mul_left_iff two_pos, ← Nat.mul_self_le_mul_self_iff, hsq]
  case neg =>
    rw [if_neg hsq, show 2 * n.sqrt + 1 ≤ 2 * a ↔ n.sqrt < a by omega, Nat.sqrt_lt]
    refine ⟨le_of_lt, fun h => lt_of_le_of_ne h ?_⟩
    rintro rfl
    exact hsq (by rw [Nat.sqrt_eq])

/-- `sqrtMag` for an exponent given by its half and its parity. -/
theorem sqrtMag_eq {m : Nat} (hm : m < 2 ^ 64) (h : Int) {o : Nat} (ho : o < 2) :
    sqrtMag m (2 * h + o) = { num := stickyRoot (m * 2 ^ (128 + o)), den := 1, exp := h - 65 } := by
  have hbound : m * 2 ^ (128 + o) < 2 ^ 97 * 2 ^ 97 := by
    calc m * 2 ^ (128 + o) ≤ 2 ^ 64 * 2 ^ 129 :=
          Nat.mul_le_mul hm.le (Nat.pow_le_pow_right two_pos (by omega))
      _ < 2 ^ 97 * 2 ^ 97 := by norm_num
  have hodd : ((2 * h + o) % 2).toNat = o := by omega
  have hhalf : (2 * h + o - o) / 2 = h := by omega
  unfold sqrtMag
  dsimp only
  rw [hodd, hhalf, Nat.shiftLeft_eq, isqrtFrom_eq_sqrt hbound]
  rfl

/-- Half of an exponent, rounded down, less the 64 binary places that `sqrtMag` computes below it: the last place of the
root it computes. -/
def rootPlace (e : Int) : Int := e / 2 - 64

theorem sqrtMag_actsAsRoot {m : Nat} (hm : m < 2 ^ 64) (e : Int) :
    (sqrtMag m e).den = 1 ∧ ActsAsRoot (magVal (sqrtMag m e)) (m * (2 : ℚ) ^ e) ((2 : ℚ) ^ rootPlace e) := by
  obtain ⟨h, o, ho, rfl⟩ : ∃ (h : Int) (o : Nat), o < 2 ∧ e = 2 * h + o :=
    ⟨e / 2, (e % 2).toNat, by omega, by omega⟩
  have hplace : rootPlace (2 * h + o) = h - 64 := by
    unfold rootPlace
    omega
  have hsquare : (2 : ℚ) ^ (h - 64) * (2 : ℚ) ^ (h - 64) * (2 ^ (128 + o) : Nat) = (2 : ℚ) ^ (2 * h + o) := by
    rw [← two_zpow_nat, ← zpow_add₀ two_ne_zero, ← zpow_add₀ two_ne_zero]
    congr 1
    push_cast
    ring
  have hpos : (0 : ℚ) < (2 : ℚ) ^ (h - 64) := by positivity
  have hvalue : (m : ℚ) * (2 : ℚ) ^ (2 * h + o) =
      (m * 2 ^ (128 + o) : Nat) * ((2 : ℚ) ^ (h - 64) * (2 : ℚ) ^ (h - 64)) := by
    rw [← hsquare]
    push_cast
    ring
  have hroot : magVal (sqrtMag m (2 * h + o)) = (stickyRoot (m * 2 ^ (128 + o)) : ℚ) / 2 * (2 : ℚ) ^ (h - 64) := by
    rw [sqrtMag_eq hm h ho, show h - 64 = h - 65 + 1 by ring, zpow_add_one₀ two_ne_zero, magVal]
    push_cast
    ring
  rw [hplace, hvalue, hroot]
  refine ⟨by rw [sqrtMag_eq hm h ho], fun a => ?_, fun a => ?_⟩
  · rw [mul_le_mul_iff_left₀ hpos, le_div_iff₀ two_pos, mul_pow, sq, sq ((2 : ℚ) ^ (h - 64)),
      mul_le_mul_iff_left₀ (mul_pos hpos hpos), mul_comm (a : ℚ)]
    exact_mod_cast double_le_stickyRoot_iff a _
  · rw [mul_le_mul_iff_left₀ hpos, div_le_iff₀ two_pos, mul_pow, sq, sq ((2 : ℚ) ^ (h - 64)),
      mul_le_mul_iff_left₀ (mul_pos hpos hpos), mul_comm (a : ℚ)]
    exact_mod_cast stickyRoot_le_double_iff a _

/-! ## The root of a positive normal -/

theorem four_zpow (e : Int) : (4 : ℚ) ^ e = ((2 : ℚ) ^ e) ^ 2 := by
  rw [← zpow_natCast, ← zpow_mul, mul_comm, zpow_mul]
  norm_num

theorem precision_cases (cw : Word) : precision cw = 24 ∨ precision cw = 53 ∨ precision cw = 64 := by
  unfold precision
  split <;> simp

theorem regVal_of_positive {v : TempReal} (hpos : signOf v = false) : regVal v = magVal (magOf v) := by
  rw [regVal_eq, hpos]
  exact one_mul _

/-- The magnitude FSQRT delivers acts as the root of the operand. -/
theorem sqrtMag_of_positive {v : TempReal} (hpos : signOf v = false) :
    (sqrtMag (sigOf v) (magOf v).exp).den ≠ 0 ∧
      ActsAsRoot (magVal (sqrtMag (sigOf v) (magOf v).exp)) (regVal v) ((2 : ℚ) ^ rootPlace (magOf v).exp) := by
  obtain ⟨hden, hroot⟩ := sqrtMag_actsAsRoot (sigOf_lt v) (magOf v).exp
  refine ⟨by rw [hden]; exact one_ne_zero, ?_⟩
  rwa [regVal_of_positive hpos, magVal_magOf]

section
variable {v : TempReal} (hv : classOf v = .normal) (hpos : signOf v = false)
include hv hpos

theorem sqrtValue_positive (cw : Word) :
    sqrtValue cw v = deliver cw (precision cw) false (sqrtMag (sigOf v) (magOf v).exp) := by
  simp [sqrtValue, hv, hpos]

/-- The binary order of the root is half that of the operand. -/
theorem order_of_root {e : Int} (hlo : (4 : ℚ) ^ e ≤ regVal v) (hhi : regVal v < (4 : ℚ) ^ (e + 1)) :
    (expField v : Int) - 16385 < 2 * e ∧ 2 * e < (expField v : Int) - 16382 := by
  obtain ⟨hlo', hhi'⟩ := magVal_normal_bounds hv
  rw [regVal_of_positive hpos, four_zpow, ← zpow_natCast, ← zpow_mul] at hlo hhi
  have h1 := (zpow_lt_zpow_iff_right₀ (one_lt_two (α := ℚ))).mp (hlo.trans_lt hhi')
  have h2 := (zpow_lt_zpow_iff_right₀ (one_lt_two (α := ℚ))).mp (hlo'.trans_lt hhi)
  push_cast at h1 h2
  omega

end

/-- The multiple k u stands for the root of v in a rounding mode, said by squares (spec 11 R80). -/
def RootRounded (rc : Rounding) (v u : ℚ) (k : Nat) : Prop :=
  match rc with
  | .nearest => (((k : ℚ) - 1 / 2) * u) ^ 2 ≤ v ∧ v ≤ (((k : ℚ) + 1 / 2) * u) ^ 2 ∧
      ((((k : ℚ) - 1 / 2) * u) ^ 2 = v ∨ (((k : ℚ) + 1 / 2) * u) ^ 2 = v → k % 2 = 0)
  | .up => ((k - 1 : ℚ) * u) ^ 2 < v ∧ v ≤ (k * u) ^ 2
  | .chop => (k * u) ^ 2 ≤ v ∧ v < ((k + 1 : ℚ) * u) ^ 2
  | .down => (k * u) ^ 2 ≤ v ∧ v < ((k + 1 : ℚ) * u) ^ 2

/-- A magnitude that acts as the root among the multiples of half a unit rounds as the root does. -/
theorem ActsAsRoot.rootRounded {x v w q : ℚ} {rc : Rounding} {k : Nat} (h : ActsAsRoot x v w) (hw : 0 < w) (hk : 1 ≤ k)
    (hx : q * (2 * w) = x) (hround : RoundsTo rc false q k) : RootRounded rc v (2 * w) k := by
  have hunit : 0 < 2 * w := by positivity
  have hbelow : ((k : ℚ) - 1 / 2) * (2 * w) = ((2 * k - 1 : Nat) : ℚ) * w := by
    rw [Nat.cast_sub (by omega)]
    push_cast
    ring
  have habove : ((k : ℚ) + 1 / 2) * (2 * w) = ((2 * k + 1 : Nat) : ℚ) * w := by
    push_cast
    ring
  have hprev : ((k : ℚ) - 1) * (2 * w) = ((2 * k - 2 : Nat) : ℚ) * w := by
    rw [Nat.cast_sub (by omega)]
    push_cast
    ring
  have hself : (k : ℚ) * (2 * w) = ((2 * k : Nat) : ℚ) * w := by
    push_cast
    ring
  have hnext : ((k : ℚ) + 1) * (2 * w) = ((2 * k + 2 : Nat) : ℚ) * w := by
    push_cast
    ring
  obtain ⟨hclose, hmode⟩ := hround
  obtain ⟨hlow, hhigh⟩ := abs_lt.mp hclose
  cases rc with
  | nearest =>
    obtain ⟨hhalf, htie⟩ := hmode
    obtain ⟨hlow', hhigh'⟩ := abs_le.mp hhalf
    refine ⟨?_, ?_, ?_⟩
    · rw [hbelow, ← h.le_iff, ← hbelow, ← hx]
      exact mul_le_mul_of_nonneg_right (by linarith) hunit.le
    · rw [habove, ← h.ge_iff, ← habove, ← hx]
      exact mul_le_mul_of_nonneg_right (by linarith) hunit.le
    · rw [hbelow, habove, ← h.eq_iff, ← h.eq_iff, ← hbelow, ← habove, ← hx]
      rintro (heq | heq)
      · have := mul_right_cancel₀ hunit.ne' heq
        exact htie (by rw [← this]; norm_num)
      · have := mul_right_cancel₀ hunit.ne' heq
        exact htie (by rw [← this]; norm_num [abs_of_nonneg])
  | up =>
    have hmode : q ≤ k := hmode
    refine ⟨?_, ?_⟩
    · rw [hprev, ← h.lt_iff, ← hprev, ← hx]
      exact mul_lt_mul_of_pos_right (by linarith) hunit
    · rw [hself, ← h.ge_iff, ← hself, ← hx]
      exact mul_le_mul_of_nonneg_right hmode hunit.le
  | chop | down =>
    have hmode : (k : ℚ) ≤ q := hmode
    refine ⟨?_, ?_⟩
    · rw [hself, ← h.le_iff, ← hself, ← hx]
      exact mul_le_mul_of_nonneg_right hmode hunit.le
    · rw [hnext, ← h.gt_iff, ← hnext, ← hx]
      exact mul_lt_mul_of_pos_right (by linarith) hunit

section
variable {v : TempReal} (hv : classOf v = .normal)
include hv

/-- The root of a positive normal is delivered rounded to the precision, and P tells whether its square is the
operand. -/
theorem sqrtValue_rounded (cw : Word) {e : Int} (hpos : signOf v = false) (hlo : (4 : ℚ) ^ e ≤ regVal v)
    (hhi : regVal v < (4 : ℚ) ^ (e + 1)) :
    ∃ (r : TempReal) (k : Nat), IsNormal (precision cw) false (k * (2 : ℚ) ^ (e - (precision cw : Int) + 1)) r ∧
      sqrtValue cw v = { flags := if regVal r * regVal r = regVal v then 0 else flagP, value := some r } ∧
      RootRounded (rounding cw) (regVal v) ((2 : ℚ) ^ (e - (precision cw : Int) + 1)) k := by
  obtain ⟨hd, hroot⟩ := sqrtMag_of_positive hpos
  obtain ⟨hexp, hexp', _⟩ := classOf_eq_normal_iff.mp hv
  obtain ⟨horder, horder'⟩ := order_of_root hv hpos hlo hhi
  rw [sqrtValue_positive hv hpos cw]
  obtain ⟨f, hf, hprec⟩ := exists_narrow (precision_cases cw)
  rw [← hprec]
  have hprec_pos := hf.prec_pos
  have hprec_le := hf.prec_le
  have hplace : rootPlace (magOf v).exp ≤ e - f.prec := by
    rw [rootPlace, magOf_exp hexp.ne']
    omega
  have hunit : (2 : ℚ) ^ (e - (f.prec : Int) + 1) = 2 * (2 : ℚ) ^ (e - (f.prec : Int)) := by
    rw [zpow_add_one₀ two_ne_zero, mul_comm]
  have hunit_pos : (0 : ℚ) < (2 : ℚ) ^ (e - (f.prec : Int) + 1) := by positivity
  generalize sqrtMag (sigOf v) (magOf v).exp = x at *
  have hlow : (2 : ℚ) ^ e ≤ magVal x := by
    have := ((hroot.coarser_zpow (g' := e) (by omega)).le_iff 1).mpr
    rw [Nat.cast_one, one_mul, ← four_zpow] at this
    exact this hlo
  have hhigh : magVal x < (2 : ℚ) ^ (e + 1) := by
    have := ((hroot.coarser_zpow (g' := e + 1) (by omega)).gt_iff 1).mpr
    rw [Nat.cast_one, one_mul, ← four_zpow] at this
    exact this hhi
  obtain ⟨k, hround, hsmall, _⟩ := deliver_inRange hf false cw hd hlow hhigh (by omega)
  have hk : 1 ≤ k := by
    refine le_roundsTo hround ?_
    rw [le_div_iff₀ hunit_pos, Nat.cast_one, one_mul]
    exact (zpow_le_zpow_right₀ one_le_two (by omega)).trans hlow
  have hk' : k ≤ 2 ^ f.prec := by
    refine roundsTo_le hround ?_
    rw [div_le_iff₀ hunit_pos, ← two_zpow_nat, ← zpow_add₀ two_ne_zero,
      show (f.prec : Int) + (e - f.prec + 1) = e + 1 by omega]
    exact hhigh.le
  have hrange : k * (2 : ℚ) ^ (e - (f.prec : Int) + 1) < (2 : ℚ) ^ (16384 : Int) := by
    calc k * (2 : ℚ) ^ (e - (f.prec : Int) + 1) ≤ (2 ^ f.prec : Nat) * (2 : ℚ) ^ (e - (f.prec : Int) + 1) :=
          mul_le_mul_of_nonneg_right (by exact_mod_cast hk') hunit_pos.le
      _ = (2 : ℚ) ^ (e + 1) := by
          rw [← two_zpow_nat, ← zpow_add₀ two_ne_zero]
          congr 1
          omega
      _ < (2 : ℚ) ^ (16384 : Int) := zpow_lt_zpow_right₀ one_lt_two (by omega)
  obtain ⟨r, hdeliver, hr⟩ := hsmall hrange
  have hhalf := hroot.coarser_zpow hplace
  refine ⟨r, k, hr, ?_, ?_⟩
  · have hexact := hhalf.eq_iff (2 * k)
    rw [show ((2 * k : Nat) : ℚ) * (2 : ℚ) ^ (e - (f.prec : Int)) = k * (2 : ℚ) ^ (e - (f.prec : Int) + 1) by
      rw [hunit]; push_cast; ring] at hexact
    rw [hdeliver, regVal_of_positive hr.sign, hr.value, ← sq]
    simp only [hexact]
  · rw [hunit] at hround ⊢
    exact hhalf.rootRounded (by positivity) hk (div_mul_cancel₀ _ (by positivity)) hround

/-- A root that a register of the precision holds exactly is delivered as it is. -/
theorem sqrtValue_exact (cw : Word) {r : TempReal} (hr : classOf r = .normal) (hrpos : signOf r = false)
    (hlow : sigOf r % 2 ^ (64 - precision cw) = 0) (hsquare : regVal r * regVal r = regVal v) :
    sqrtValue cw v = { flags := 0, value := some r } := by
  have hpos : signOf v = false := by
    by_contra hneg
    have hsq : 0 < regVal r * regVal r := mul_self_pos.mpr (regVal_ne_zero hr)
    rw [hsquare, regVal_eq, Bool.eq_true_of_not_eq_false hneg, signFactor, if_pos rfl] at hsq
    have := magVal_nonneg (magOf v)
    linarith
  obtain ⟨hd, hroot⟩ := sqrtMag_of_positive hpos
  obtain ⟨hexp, _, _⟩ := classOf_eq_normal_iff.mp hv
  obtain ⟨hrexp, _, _⟩ := classOf_eq_normal_iff.mp hr
  rw [sqrtValue_positive hv hpos cw]
  refine deliver_of_value hd hr hlow ?_
  have hplace : rootPlace (magOf v).exp ≤ (magOf r).exp := by
    have hbound : (2 : ℚ) ^ ((expField v : Int) - 16383) < (2 : ℚ) ^ (2 * ((expField r : Int) - 16383 + 1)) := by
      obtain ⟨_, hhi⟩ := magVal_normal_bounds hr
      calc (2 : ℚ) ^ ((expField v : Int) - 16383) ≤ magVal (magOf v) := (magVal_normal_bounds hv).1
        _ = magVal (magOf r) * magVal (magOf r) := by
          rw [← regVal_of_positive hpos, ← hsquare, regVal_of_positive hrpos]
        _ < (2 : ℚ) ^ ((expField r : Int) - 16383 + 1) * (2 : ℚ) ^ ((expField r : Int) - 16383 + 1) :=
          mul_self_lt_mul_self (magVal_nonneg _) hhi
        _ = (2 : ℚ) ^ (2 * ((expField r : Int) - 16383 + 1)) := by rw [← zpow_add₀ two_ne_zero, two_mul]
    have := (zpow_lt_zpow_iff_right₀ (one_lt_two (α := ℚ))).mp hbound
    rw [rootPlace, magOf_exp hexp.ne', magOf_exp hrexp.ne']
    omega
  have heq := ((hroot.coarser_zpow hplace).eq_iff (sigOf r)).mpr
  rw [← magVal_magOf, ← regVal_of_positive hrpos, sq] at heq
  exact (heq hsquare).trans (one_mul _).symm

end

/-! ## The other operands -/

section
variable (cw : Word) {v : TempReal}

theorem sqrtValue_zero (h : classOf v = .zero) : sqrtValue cw v = .pure v := by simp only [sqrtValue, h]

theorem sqrtValue_infinity (h : classOf v = .infinity) :
    sqrtValue cw v =
      if cw.getLsbD 12 = true ∧ signOf v = false then .pure v else signalBefore cw flagI indefinite := by
  simp [sqrtValue, h, affine]

theorem sqrtValue_invalid
    (h : (classOf v = .normal ∧ signOf v = true) ∨ classOf v = .unnormal ∨ classOf v = .pseudoZero) :
    sqrtValue cw v = signalBefore cw flagI indefinite := by
  rcases h with ⟨h, hneg⟩ | h | h
  · simp only [sqrtValue, h, hneg, if_true]
  · simp only [sqrtValue, h]
  · simp only [sqrtValue, h]

theorem sqrtValue_denormal (h : classOf v = .denormal) :
    sqrtValue cw v = (signalBefore cw flagD ()).andThen fun _ => signalBefore cw flagI indefinite := by
  simp only [sqrtValue, h]

end

/-- D, and after it, D masked, what is computed next. -/
theorem signalD_andThen {α : Type} (cw : Word) (o : Out α) :
    ((signalBefore cw flagD ()).andThen fun _ => o) =
      if cw.getLsbD 1 then { flags := flagD ||| o.flags, value := o.value } else { flags := flagD, value := none } := by
  unfold signalBefore
  rw [masked_flagD]
  cases cw.getLsbD 1 <;> rfl

/-- Settles O33, class by class. -/
theorem exactSquareRoots : Obligations.ExactSquareRoots := by
  intro cw v
  dsimp only
  rw [← signalBefore_invalid, ← signalBefore_invalid]
  refine ⟨fun r hv hr hrpos hlow hsq => sqrtValue_exact hv cw hr hrpos hlow hsq, fun e _ hv hpos hlo hhi => ?_,
    sqrtValue_zero cw, sqrtValue_nan cw v, sqrtValue_infinity cw, sqrtValue_invalid cw, fun h => ?_⟩
  · obtain ⟨r, k, hr, hvalue, hrounded⟩ := sqrtValue_rounded hv cw hpos hlo hhi
    refine ⟨r, k, hr.normal, hr.sign, hr.low, (regVal_of_positive hr.sign).trans hr.value, hvalue, ?_⟩
    cases hrc : rounding cw <;> rw [hrc] at hrounded <;> exact hrounded
  · rw [sqrtValue_denormal cw h, signalD_andThen, BitVec.or_comm, signalBefore_invalid]

end Sys2Proof.Machine
end

section
/-! PROOFS. FRNDINT gives the integer its rounding mode names (spec 41 R229). -/

namespace Sys2Proof.Machine

open Sys2Proof.Safety (RoundsTo)

/-! ## The temporary real of a large integer -/

/-- An integer is held exactly when the bits below the 64 highest are zeros. -/
theorem regVal_ofBigNat (neg : Bool) {n : Nat} (hn : n ≠ 0) (hlog : n.log2 < 16384) (hdvd : 2 ^ (n.log2 - 63) ∣ n) :
    regVal (ofBigNat neg n) = signFactor neg * n := by
  by_cases hsmall : n.log2 ≤ 63
  case pos =>
    have hlt : n < 2 ^ 64 := (Nat.log2_lt hn).mp (by omega)
    rw [← regVal_ofSignedNat neg hlt, ofBigNat, ofSignedNat, if_pos hsmall, if_neg hn]
  case neg =>
    obtain ⟨j, hj⟩ : ∃ j, n.log2 = j + 63 := ⟨n.log2 - 63, by omega⟩
    have hlt := Nat.lt_log2_self (n := n)
    rw [hj, Nat.add_sub_cancel] at hdvd
    rw [hj] at hlog hlt
    rw [ofBigNat, hj]
    obtain ⟨c, rfl⟩ := hdvd
    have hbits : c < 2 ^ 64 := by
      rw [add_assoc, pow_add] at hlt
      exact Nat.lt_of_mul_lt_mul_left hlt
    have hval := regVal_packReal_left neg (E := j + 63 + 16383) (by omega) (by omega) le_rfl hbits
    rw [Nat.sub_self, pow_zero, mul_one, show ((j + 63 + 16383 : Nat) : Int) - 16382 - (64 : Nat) = j by omega] at hval
    rw [if_neg (by omega), Nat.add_sub_cancel, Nat.shiftRight_eq_div_pow, Nat.mul_div_cancel_left _ (by positivity),
      hval, Nat.cast_mul, ← two_zpow_nat, mul_assoc, mul_comm (c : ℚ)]

/-! ## Rounding a normal to an integer -/

/-- A normal rounds to an integer that a temporary real holds: itself from 2^63 on, and else one of at most 64 bits. -/
theorem roundAt_zero_representable (rc : Rounding) {v : TempReal} (hv : classOf v = .normal) :
    let k := (roundAt rc (signOf v) (magOf v) 0).count
    k.log2 < 16384 ∧ 2 ^ (k.log2 - 63) ∣ k := by
  obtain ⟨hexp, hexp', hsig⟩ := classOf_eq_normal_iff.mp hv
  have hfield := magOf_exp hexp.ne'
  dsimp only
  rcases le_or_gt 0 (magOf v).exp with hlarge | hsmall
  case inl =>
    have hvalue : magVal (magOf v) = (sigOf v * 2 ^ (magOf v).exp.toNat : Nat) * (2 : ℚ) ^ (0 : Int) := by
      rw [magVal_magOf, zpow_zero, mul_one, Nat.cast_mul, ← two_zpow_nat, Int.toNat_of_nonneg hlarge]
    rw [roundAt_of_multiple rc (signOf v) one_ne_zero hvalue]
    dsimp only
    have hne : sigOf v * 2 ^ (magOf v).exp.toNat ≠ 0 := by positivity
    have hlog : (sigOf v * 2 ^ (magOf v).exp.toNat).log2 = 63 + (magOf v).exp.toNat := by
      rw [Nat.log2_eq_iff hne, pow_add, show 63 + (magOf v).exp.toNat + 1 = 64 + (magOf v).exp.toNat by omega, pow_add]
      exact ⟨Nat.mul_le_mul_right _ hsig, Nat.mul_lt_mul_of_pos_right (sigOf_lt v) (by positivity)⟩
    rw [hlog, Nat.add_sub_cancel_left]
    exact ⟨by omega, Nat.dvd_mul_left ..⟩
  case inr =>
    have hround := roundAt_roundsTo rc (signOf v) (x := magOf v) one_ne_zero 0
    have hcount : (roundAt rc (signOf v) (magOf v) 0).count ≤ 2 ^ 63 := by
      refine roundsTo_le hround ?_
      rw [zpow_zero, div_one, ← two_zpow_nat]
      exact (magVal_magOf_lt hexp.ne').le.trans (zpow_le_zpow_right₀ one_le_two (by omega))
    generalize (roundAt rc (signOf v) (magOf v) 0).count = k at *
    have hlog : k.log2 ≤ 63 := by
      by_cases hk : k = 0
      · subst hk
        decide
      · exact Nat.le_of_lt_succ ((Nat.log2_lt hk).mpr (by omega))
    exact ⟨by omega, by rw [Nat.sub_eq_zero_of_le hlog]; exact one_dvd k⟩

/-- The integer of a sign and a magnitude. -/
def signedInt (neg : Bool) (k : Nat) : Int := if neg then -(k : Int) else k

theorem signedInt_cast (neg : Bool) (k : Nat) : ((signedInt neg k : Int) : ℚ) = signFactor neg * k := by
  cases neg <;> simp [signedInt, signFactor]

theorem abs_signFactor_mul (neg : Bool) (x : ℚ) : |signFactor neg * x| = |x| := by cases neg <;> simp [signFactor]

/-- FRNDINT of a normal: the rounded magnitude with the sign of the operand. -/
theorem rndintValue_normal (cw : Word) {v : TempReal} (hv : classOf v = .normal) :
    ∃ (r : TempReal) (k : Nat), rndintValue cw v =
        { flags := if (k : ℚ) = magVal (magOf v) then 0 else flagP, value := some r } ∧
      regVal r = signFactor (signOf v) * k ∧ signOf r = signOf v ∧
      RoundsTo (rounding cw) (signOf v) (magVal (magOf v)) k := by
  have hround := roundAt_roundsTo (rounding cw) (signOf v) (x := magOf v) one_ne_zero 0
  have hflag := flagPIf_roundAt (rounding cw) (signOf v) (x := magOf v) one_ne_zero 0
  obtain ⟨hlog, hdvd⟩ := roundAt_zero_representable (rounding cw) hv
  rw [zpow_zero, div_one] at hround
  rw [zpow_zero, mul_one] at hflag
  have hvalue : rndintValue cw v = .after (flagPIf (roundAt (rounding cw) (signOf v) (magOf v) 0).inexact)
      (if (roundAt (rounding cw) (signOf v) (magOf v) 0).count = 0 then zeroOf (signOf v)
        else ofBigNat (signOf v) (roundAt (rounding cw) (signOf v) (magOf v) 0).count) := by
    simp only [rndintValue, hv]
  rw [hflag] at hvalue
  refine ⟨_, _, hvalue, ?_, ?_, hround⟩
  · split
    case isTrue hzero => simp [hzero, zeroOf, regVal_eq, magVal]
    case isFalse hne => exact regVal_ofBigNat _ hne hlog hdvd
  · split
    · exact signOf_packReal ..
    · exact signOf_packReal ..

/-- Settles O34: the rounding of the magnitude is, with the sign, the rounding of the value. -/
theorem roundToInteger : Obligations.RoundToInteger := by
  intro cw v hv
  obtain ⟨r, k, hvalue, hreg, hsign, hclose, hmode⟩ := rndintValue_normal cw hv
  have hdist : |((signedInt (signOf v) k : Int) : ℚ) - regVal v| = |magVal (magOf v) - k| := by
    rw [signedInt_cast, regVal_eq, ← mul_sub, abs_signFactor_mul, abs_sub_comm]
  refine ⟨r, signedInt (signOf v) k, by rw [hvalue], hreg.trans (signedInt_cast ..).symm, hsign, hdist ▸ hclose, ?_, ?_⟩
  · have hexact : regVal v = ((signedInt (signOf v) k : Int) : ℚ) ↔ (k : ℚ) = magVal (magOf v) := by
      rw [signedInt_cast, regVal_eq, mul_right_inj' (signFactor_ne_zero _), eq_comm]
    rw [hvalue]
    simp only [hexact]
  · rw [hdist, signedInt_cast, regVal_eq]
    have hnonneg := magVal_nonneg (magOf v)
    cases hrc : rounding cw <;> rw [hrc] at hmode
    case nearest =>
      refine ⟨hmode.1, fun htie => ?_⟩
      have heven := hmode.2 htie
      unfold signedInt
      split <;> omega
    case down => cases hneg : signOf v <;> simpa [hneg, signFactor] using hmode
    case up => cases hneg : signOf v <;> simpa [hneg, signFactor] using hmode
    case chop =>
      rw [abs_signFactor_mul, abs_signFactor_mul, abs_of_nonneg hnonneg, Nat.abs_cast]
      exact hmode

end Sys2Proof.Machine
end

section
/-! PROOFS. FSCALE multiplies by a power of two (spec 41 R228). -/

namespace Sys2Proof.Machine

open Sys2Proof.Config (Mag)

/-! ## The scale factor -/

theorem abs_regVal (r : TempReal) : |regVal r| = magVal (magOf r) := by
  rw [regVal_eq, abs_signFactor_mul, abs_of_nonneg (magVal_nonneg _)]

/-- The whole part of a magnitude. -/
theorem scaled_zero_div (x : Mag) : (scaled x 0).1 / (scaled x 0).2 = ⌊magVal x⌋₊ := by
  have hval := scaled_val x 0
  rw [zpow_zero, div_one] at hval
  rw [← hval, Nat.floor_div_eq_div]

/-- A magnitude is whole when its quotient leaves no rest. -/
theorem scaled_zero_mod {x : Mag} (hd : x.den ≠ 0) :
    (scaled x 0).1 % (scaled x 0).2 = 0 ↔ magVal x = (⌊magVal x⌋₊ : ℚ) := by
  have hval := scaled_val x 0
  rw [zpow_zero, div_one] at hval
  rw [mod_eq_zero_iff_quotient_integer _ (scaled_den_pos hd 0), hval]
  refine ⟨fun ⟨k, hk⟩ => ?_, fun h => ⟨_, h⟩⟩
  rw [hk, Nat.floor_natCast]

theorem chopped_eq_signedInt (s : TempReal) : chopped s = signedInt (signOf s) ⌊magVal (magOf s)⌋₊ := by
  rw [← scaled_zero_div]
  rfl

/-- The integer a scale factor is chopped to is told by its magnitude and by not having the other sign. -/
theorem chopped_eq {s : TempReal} {n : Int} (hle : |(n : ℚ)| ≤ |regVal s|) (hlt : |regVal s| < |(n : ℚ)| + 1)
    (hsign : 0 ≤ n * regVal s) : chopped s = n := by
  have habs : |(n : ℚ)| = (n.natAbs : ℚ) := by rw [Nat.cast_natAbs, Int.cast_abs]
  rw [abs_regVal, habs] at hle hlt
  have hfloor : ⌊magVal (magOf s)⌋₊ = n.natAbs := (Nat.floor_eq_iff (magVal_nonneg _)).mpr ⟨hle, hlt⟩
  rw [chopped_eq_signedInt, hfloor]
  rw [regVal_eq] at hsign
  unfold signedInt
  by_cases hn : n = 0
  case pos =>
    subst hn
    simp
  case neg =>
    have hmag : 0 < magVal (magOf s) := by
      have hpos : (0 : ℚ) < n.natAbs := by exact_mod_cast Int.natAbs_pos.mpr hn
      linarith
    cases hneg : signOf s with
    | false =>
      rw [hneg, signFactor, if_neg Bool.false_ne_true, one_mul] at hsign
      have hn' : (0 : ℚ) ≤ n := nonneg_of_mul_nonneg_left hsign hmag
      have : 0 ≤ n := by exact_mod_cast hn'
      simp only [Bool.false_eq_true, if_false]
      omega
    | true =>
      rw [hneg, signFactor, if_pos rfl, neg_one_mul, mul_neg, ← neg_mul] at hsign
      have hn' : (0 : ℚ) ≤ -n := nonneg_of_mul_nonneg_left hsign hmag
      have : n ≤ 0 := by exact_mod_cast neg_nonneg.mp hn'
      simp only [if_true]
      omega

/-- The range of scale factors, by value (spec 41 R228). -/
theorem scaleInRange_iff (s : TempReal) :
    scaleInRange s = true ↔ (regVal s = 0 ∨ 1 ≤ |regVal s|) ∧ -32768 ≤ regVal s ∧ regVal s < 32768 := by
  have hnonneg := magVal_nonneg (magOf s)
  have hzero : sigOf s = 0 ↔ regVal s = 0 := by
    rw [regVal_eq, mul_eq_zero, or_iff_right (signFactor_ne_zero _), magVal_magOf, mul_eq_zero,
      or_iff_left (by positivity), Nat.cast_eq_zero]
  have hone : 1 ≤ ⌊magVal (magOf s)⌋₊ ↔ 1 ≤ |regVal s| := by
    rw [abs_regVal, Nat.le_floor_iff hnonneg, Nat.cast_one]
  have hbelow : ⌊magVal (magOf s)⌋₊ < 32768 ↔ magVal (magOf s) < 32768 := by
    rw [Nat.floor_lt hnonneg]
    norm_num
  have hbound : (⌊magVal (magOf s)⌋₊ < 32768 ∨
      (⌊magVal (magOf s)⌋₊ = 32768 ∧ (scaled (magOf s) 0).1 % (scaled (magOf s) 0).2 = 0)) ↔
        magVal (magOf s) ≤ 32768 := by
    rw [scaled_zero_mod one_ne_zero, hbelow, le_iff_lt_or_eq]
    refine or_congr Iff.rfl ⟨fun ⟨hfloor, heq⟩ => ?_, fun h => ?_⟩
    · rw [heq, hfloor]
      norm_num
    · have hfloor : ⌊magVal (magOf s)⌋₊ = 32768 := by
        rw [h]
        exact Nat.floor_ofNat 32768
      exact ⟨hfloor, by rw [hfloor, h]; norm_num⟩
  unfold scaleInRange
  dsimp only
  rw [scaled_zero_div, Bool.and_eq_true, Bool.or_eq_true, decide_eq_true_iff, decide_eq_true_iff, hzero, hone,
    and_congr_right_iff]
  intro _
  cases hneg : signOf s with
  | false =>
    have hval : regVal s = magVal (magOf s) := regVal_of_positive hneg
    simp only [Bool.false_eq_true, if_false, decide_eq_true_iff, hbelow, hval]
    exact ⟨fun h => ⟨by linarith, h⟩, fun h => h.2⟩
  | true =>
    have hval : regVal s = -magVal (magOf s) := by
      rw [regVal_eq, hneg]
      exact neg_one_mul _
    simp only [if_true, Bool.or_eq_true, Bool.and_eq_true, decide_eq_true_iff, hbound, hval]
    exact ⟨fun h => ⟨by linarith, by linarith⟩, fun h => by linarith⟩

/-! ## The value of FSCALE -/

theorem kindOf_eq_infinity_iff {r : TempReal} : kindOf r = .infinity ↔ classOf r = .infinity := by
  unfold kindOf
  cases classOf r <;> simp

section
variable (cw : Word) (draw : Nat) {a k : TempReal}

/-- FSCALE of a normal by a finite factor. -/
theorem scaleValue_normal (ha : classOf a = .normal) (hk : classOf k = .normal ∨ classOf k = .zero) :
    scaleValue cw draw a k =
      if scaleInRange k then
        deliver cw 64 (signOf a) { num := sigOf a, den := 1, exp := (magOf a).exp + chopped k }
      else .pure (Config.freeReg draw) := by
  rcases hk with hk | hk
  · simp [scaleValue, pickNan, kindOf, ha, hk]
  · simp [scaleValue, pickNan, kindOf, ha, hk]

/-- A factor in range multiplies by the power of two of its whole part. -/
theorem scaleValue_exact {r : TempReal} {n : Int} (ha : classOf a = .normal)
    (hk : classOf k = .normal ∨ classOf k = .zero) (hrange : scaleInRange k = true) (hn : chopped k = n)
    (hr : classOf r = .normal) (hvalue : regVal r = regVal a * (2 : ℚ) ^ n) :
    scaleValue cw draw a k = { flags := 0, value := some r } := by
  have hmag : magVal { num := sigOf a, den := 1, exp := (magOf a).exp + n } = magVal (magOf a) * (2 : ℚ) ^ n := by
    rw [magVal_magOf, mul_assoc, ← zpow_add₀ two_ne_zero]
    simp [magVal]
  have hsigned : signFactor (signOf a) * magVal { num := sigOf a, den := 1, exp := (magOf a).exp + n } =
      signFactor (signOf r) * magVal (magOf r) := by
    rw [hmag, ← mul_assoc, ← regVal_eq, ← hvalue, regVal_eq]
  obtain ⟨hsign, hx⟩ := sign_magnitude_unique (magVal_nonneg _) (magVal_magOf_pos hr) hsigned
  rw [scaleValue_normal cw draw ha hk, if_pos hrange, hn, hsign]
  exact deliver_of_normal cw one_ne_zero hr hx le_rfl (Nat.mod_one _)

theorem scaleValue_nan (h : classOf a = .nan ∨ classOf k = .nan) :
    scaleValue cw draw a k =
      signalBefore cw flagI (if classOf a = .nan ∧ (classOf k = .nan → sigOf k ≤ sigOf a) then a else k) := by
  unfold scaleValue
  rw [pickNan_eq_some h]

theorem scaleValue_by_infinity
    (ha : classOf a = .infinity ∨ classOf a = .normal ∨ classOf a = .denormal ∨ classOf a = .unnormal)
    (hk : classOf k = .infinity) : scaleValue cw draw a k = signalBefore cw flagI indefinite := by
  rcases ha with ha | ha | ha | ha <;> simp [scaleValue, pickNan, kindOf, ha, hk]

theorem scaleValue_of_infinity (ha : classOf a = .infinity) (hk : classOf k ≠ .infinity) (hk' : classOf k ≠ .nan) :
    scaleValue cw draw a k = .pure a := by
  have hpick : pickNan a k = none := by simp [pickNan, ha, hk']
  have hkind : kindOf k ≠ .infinity := mt kindOf_eq_infinity_iff.mp hk
  simp only [scaleValue, hpick, kindOf_infinity ha]

theorem scaleValue_of_zero (ha : classOf a = .zero) (hk : classOf k ≠ .nan) : scaleValue cw draw a k = .pure a := by
  have hpick : pickNan a k = none := by simp [pickNan, ha, hk]
  simp only [scaleValue, hpick, kindOf_zero ha]

end

/-- Settles O36, from the range of the factor and its whole part; the special operands by class. -/
theorem scaleByAnInteger : Obligations.ScaleByAnInteger := by
  intro cw draw a k
  dsimp only
  rw [← signalBefore_invalid, ← signalBefore_invalid]
  refine ⟨fun r n ha hk hn hlo hhi hr hvalue => ?_, fun r n ha hk hone hlo hhi hle hlt hsign hr hvalue => ?_,
    fun ha hk hout => ?_, scaleValue_nan cw draw, scaleValue_by_infinity cw draw, scaleValue_of_infinity cw draw,
    scaleValue_of_zero cw draw⟩
  · refine scaleValue_exact cw draw ha hk ((scaleInRange_iff k).mpr ⟨?_, ?_, ?_⟩) (chopped_eq ?_ ?_ ?_) hr hvalue
    · rw [hn, ← Int.cast_abs]
      by_cases hzero : n = 0
      · exact .inl (by exact_mod_cast hzero)
      · exact .inr (by exact_mod_cast Int.one_le_abs hzero)
    · rw [hn]
      exact_mod_cast hlo
    · rw [hn]
      exact_mod_cast hhi
    · rw [hn]
    · rw [hn]
      exact lt_add_one _
    · rw [hn]
      exact mul_self_nonneg _
  · exact scaleValue_exact cw draw ha (.inl hk) ((scaleInRange_iff k).mpr ⟨.inr hone, hlo, hhi⟩)
      (chopped_eq hle hlt hsign) hr hvalue
  · have hrange : ¬scaleInRange k = true := by
      rw [scaleInRange_iff]
      rintro ⟨hone, hlo, hhi⟩
      have := hone.resolve_left (regVal_ne_zero hk)
      rcases hout with h | h | h <;> linarith
    rw [scaleValue_normal cw draw ha (.inl hk), if_neg hrange]
    exact ⟨rfl, rfl⟩

end Sys2Proof.Machine
end

section
/-! PROOFS. FPREM gives exact remainders (spec 41 R232): one reduction, and the special operands. -/

namespace Sys2Proof.Machine

open Sys2Proof.Config (Mag)

/-! ## The delivery of a remainder -/

/-- An integer of at most 64 bits times a power of two is a normal, where it is neither below the least nor above the
largest. -/
theorem exists_normal_of_bits (neg : Bool) {m : Nat} {e : Int} (hm : m < 2 ^ 64) (hm' : m ≠ 0)
    (hlo : (2 : ℚ) ^ (-16382 : Int) ≤ m * (2 : ℚ) ^ e) (hhi : m * (2 : ℚ) ^ e < (2 : ℚ) ^ (16384 : Int)) :
    ∃ r, IsNormal 64 neg (m * (2 : ℚ) ^ e) r := by
  have hbits := (Nat.log2_lt hm').mpr hm
  obtain ⟨hm_lo, hm_hi⟩ := log2_bounds hm'
  have hpos : (0 : ℚ) < (2 : ℚ) ^ e := by positivity
  have hleast : (2 : ℚ) ^ (-16382 : Int) < (2 : ℚ) ^ ((m.log2 : Int) + 1 + e) := by
    rw [zpow_add₀ two_ne_zero]
    exact hlo.trans_lt (mul_lt_mul_of_pos_right hm_hi hpos)
  have hlargest : (2 : ℚ) ^ ((m.log2 : Int) + e) < (2 : ℚ) ^ (16384 : Int) := by
    rw [zpow_add₀ two_ne_zero]
    exact (mul_le_mul_of_nonneg_right hm_lo hpos.le).trans_lt hhi
  have hE := (zpow_lt_zpow_iff_right₀ (one_lt_two (α := ℚ))).mp hleast
  have hE' := (zpow_lt_zpow_iff_right₀ (one_lt_two (α := ℚ))).mp hlargest
  have hfield : 0 < ((m.log2 : Int) + e + 16383).toNat := by omega
  have hval := regVal_packReal_left neg hfield (by omega) (p := m.log2 + 1) (by omega) Nat.lt_log2_self
  have hexp : (((m.log2 : Int) + e + 16383).toNat : Int) - 16382 - (m.log2 + 1 : Nat) = e := by omega
  rw [hexp, mul_assoc, regVal_eq, signOf_packReal] at hval
  exact ⟨_, classOf_packReal_left neg hfield (by omega) (by omega) (by omega) Nat.lt_log2_self (Nat.log2_self_le hm'),
    signOf_packReal .., Nat.mod_one _, mul_left_cancel₀ (signFactor_ne_zero neg) hval⟩

/-- A remainder of at most 64 bits that does not underflow is delivered exactly. -/
theorem deliverRemainder_exact (cw : Word) (neg : Bool) {m : Nat} {e : Int} (hm : m < 2 ^ 64)
    (hlo : m * (2 : ℚ) ^ e = 0 ∨ (2 : ℚ) ^ (-16382 : Int) ≤ m * (2 : ℚ) ^ e)
    (hhi : m * (2 : ℚ) ^ e < (2 : ℚ) ^ (16384 : Int)) (how : PremEnd) :
    ∃ r, deliverRemainder cw neg { num := m, den := 1, exp := e } how = { flags := 0, value := some (r, how) } ∧
      signOf r = neg ∧ magVal (magOf r) = m * (2 : ℚ) ^ e := by
  by_cases hzero : m = 0
  case pos =>
    subst hzero
    exact ⟨zeroOf neg, rfl, signOf_packReal .., by simp [zeroOf, magVal]⟩
  case neg =>
    have hne : (m : ℚ) * (2 : ℚ) ^ e ≠ 0 := mul_ne_zero (by exact_mod_cast hzero) (by positivity)
    obtain ⟨r, hr⟩ := exists_normal_of_bits neg hm hzero (hlo.resolve_left hne) hhi
    have hmag : magVal { num := m, den := 1, exp := e } = magVal (magOf r) := by
      rw [hr.value]
      simp [magVal]
    refine ⟨r, ?_, hr.sign, hr.value⟩
    rw [deliverRemainder, if_neg (by simp [magZero, hzero]), ← hr.sign,
      deliver_of_normal cw one_ne_zero hr.normal hmag le_rfl hr.low, Out.andThen_pure]
    rfl

/-! ## One reduction -/

/-- The integers x and y of a reduction, over the power of two that dividend and shifted modulus share. -/
theorem exists_common_scale (a b : TempReal) (shift : Int) :
    let e := min (magOf a).exp ((magOf b).exp + shift)
    let x := sigOf a <<< ((magOf a).exp - e).toNat
    let y := sigOf b <<< ((magOf b).exp + shift - e).toNat
    x * (2 : ℚ) ^ e = magVal (magOf a) ∧ y * (2 : ℚ) ^ e = magVal (magOf b) * (2 : ℚ) ^ shift ∧
      (x < 2 ^ 64 ∨ y < 2 ^ 64) := by
  dsimp only
  refine ⟨?_, ?_, ?_⟩
  · rw [shiftLeft_toNat_val (min_le_left ..), magVal_magOf]
  · rw [shiftLeft_toNat_val (min_le_right ..), magVal_magOf, zpow_add₀ two_ne_zero, mul_assoc]
  · rcases le_total (magOf a).exp ((magOf b).exp + shift) with h | h
    · rw [min_eq_left h, sub_self]
      exact .inl (sigOf_lt a)
    · rw [min_eq_right h, sub_self]
      exact .inr (sigOf_lt b)

/-- How far the reduction shifts the modulus: not at all for an exponent difference below 64, else by 1 to 64 less. -/
def premShift (d : Int) : Int := if d < 64 then 0 else d - (1 + Config.fpremStep d.toNat % 64 : Nat)

/-- A reduction subtracts the whole part of the quotient by the shifted modulus, exactly. -/
theorem premReduce_exact (cw : Word) {a b : TempReal} (ha : classOf a = .normal) (hb : classOf b = .normal) :
    let d := magLog (magOf a) - magLog (magOf b)
    let m := magVal (magOf b) * (2 : ℚ) ^ premShift d
    let q := ⌊magVal (magOf a) / m⌋₊
    0 ≤ magVal (magOf a) - q * m ∧
      (magVal (magOf a) - q * m = 0 ∨ (2 : ℚ) ^ (-16382 : Int) ≤ magVal (magOf a) - q * m →
        ∃ r, premReduce cw (signOf a) (magOf a) (magOf b) =
            { flags := 0, value := some (r, if d < 64 then .complete q else .incomplete) } ∧
          signOf r = signOf a ∧ magVal (magOf r) = magVal (magOf a) - q * m) := by
  intro d m q
  obtain ⟨hx, hy, hbits⟩ := exists_common_scale a b (premShift d)
  have hreduce : premReduce cw (signOf a) (magOf a) (magOf b) =
      let e := min (magOf a).exp ((magOf b).exp + premShift d)
      let x := sigOf a <<< ((magOf a).exp - e).toNat
      let y := sigOf b <<< ((magOf b).exp + premShift d - e).toNat
      deliverRemainder cw (signOf a) { num := x % y, den := 1, exp := e }
        (if d < 64 then .complete (x / y) else .incomplete) := rfl
  dsimp only at hx hy hbits hreduce
  generalize min (magOf a).exp ((magOf b).exp + premShift d) = e at *
  generalize sigOf a <<< ((magOf a).exp - e).toNat = x at *
  generalize sigOf b <<< ((magOf b).exp + premShift d - e).toNat = y at *
  have hscale : (0 : ℚ) < (2 : ℚ) ^ e := by positivity
  have hm : 0 < m := mul_pos (magVal_magOf_pos hb) (by positivity)
  have hy_pos : 0 < y := by
    have hpos : (0 : ℚ) < y := pos_of_mul_pos_left (hy ▸ hm) hscale.le
    exact_mod_cast hpos
  have hquot : q = x / y := by
    change ⌊magVal (magOf a) / m⌋₊ = x / y
    rw [← hx, show m = y * (2 : ℚ) ^ e from hy.symm, mul_div_mul_right _ _ hscale.ne', Nat.floor_div_eq_div]
  have hrest : magVal (magOf a) - q * m = (x % y : Nat) * (2 : ℚ) ^ e := by
    have hsplit : (x : ℚ) = y * (x / y : Nat) + (x % y : Nat) := by exact_mod_cast (Nat.div_add_mod x y).symm
    rw [hquot, ← hx, show m = y * (2 : ℚ) ^ e from hy.symm]
    conv_lhs => rw [hsplit]
    ring
  have hmod : x % y < 2 ^ 64 := by
    have h1 := Nat.mod_le x y
    have h2 := Nat.mod_lt x hy_pos
    omega
  rw [hrest, hreduce, hquot]
  refine ⟨by positivity, fun hlo => deliverRemainder_exact cw (signOf a) hmod hlo ?_ _⟩
  calc ((x % y : Nat) : ℚ) * (2 : ℚ) ^ e ≤ x * (2 : ℚ) ^ e :=
        mul_le_mul_of_nonneg_right (by exact_mod_cast Nat.mod_le x y) hscale.le
    _ = magVal (magOf a) := hx
    _ < (2 : ℚ) ^ ((expField a : Int) - 16383 + 1) := (magVal_normal_bounds ha).2
    _ ≤ (2 : ℚ) ^ (16384 : Int) := zpow_le_zpow_right₀ one_le_two (by
        obtain ⟨_, hexp, _⟩ := classOf_eq_normal_iff.mp ha
        omega)

/-! ## The checks before the reduction (spec 41 R232) -/

/-- The steps of FPREM after the check for a denormal dividend. -/
def premUndenormal (cw : Word) (a b : TempReal) : Out (TempReal × PremEnd) :=
  match pickNan a b with
  | some nan => signalBefore cw flagI (nan, .invalid)
  | none =>
    match kindOf a, kindOf b with
    | _, .unnormal => signalBefore cw flagI (indefinite, .invalid)
    | _, .pseudoZero => signalBefore cw flagI (indefinite, .invalid)
    | _, .zero => signalBefore cw flagI (indefinite, .invalid)
    | .infinity, _ => signalBefore cw flagI (indefinite, .invalid)
    | _, .infinity => .pure (a, .complete 0)
    | .zero, _ => .pure (a, .complete 0)
    | .pseudoZero, _ => .pure (zeroOf (signOf a), .complete 0)
    | _, .normal => premReduce cw (signOf a) (magOf a) (magOf b)

theorem premValue_eq (cw : Word) (a b : TempReal) :
    premValue cw a b =
      if classOf a = .denormal then
        if cw.getLsbD 1 then
          { flags := flagD ||| (premUndenormal cw a b).flags, value := (premUndenormal cw a b).value }
        else { flags := flagD, value := none }
      else premUndenormal cw a b := by
  have hsteps : premValue cw a b =
      (if classOf a = .denormal then signalBefore cw flagD () else .pure ()).andThen fun _ =>
        premUndenormal cw a b := rfl
  rw [hsteps]
  split
  · exact signalD_andThen cw _
  · exact Out.andThen_pure ..

section
variable (cw : Word) {a b : TempReal}

theorem premUndenormal_normal (ha : classOf a = .normal) (hb : classOf b = .normal) :
    premUndenormal cw a b = premReduce cw (signOf a) (magOf a) (magOf b) := by
  simp [premUndenormal, pickNan, ha, hb, kindOf_normal ha, kindOf_normal hb]

theorem premUndenormal_nan (h : classOf a = .nan ∨ classOf b = .nan) :
    premUndenormal cw a b =
      signalBefore cw flagI
        (if classOf a = .nan ∧ (classOf b = .nan → sigOf b ≤ sigOf a) then a else b, .invalid) := by
  unfold premUndenormal
  rw [pickNan_eq_some h]

/-- Without a NaN, a modulus that is no normal and no infinity is invalid, and so is an infinite dividend. -/
theorem premUndenormal_invalid (ha : classOf a ≠ .nan) (hb : classOf b ≠ .nan)
    (h : kindOf b = .unnormal ∨ kindOf b = .pseudoZero ∨ kindOf b = .zero ∨ kindOf a = .infinity) :
    premUndenormal cw a b = signalBefore cw flagI (indefinite, .invalid) := by
  have hpick : pickNan a b = none := by simp [pickNan, ha, hb]
  rcases h with h | h | h | h
  · simp only [premUndenormal, hpick, h]
  · simp only [premUndenormal, hpick, h]
  · simp only [premUndenormal, hpick, h]
  · simp only [premUndenormal, hpick, h]
    cases kindOf b <;> rfl

theorem premUndenormal_unchanged (ha : classOf a ≠ .nan)
    (h : (classOf a ≠ .infinity ∧ classOf b = .infinity) ∨ (classOf a = .zero ∧ classOf b = .normal)) :
    premUndenormal cw a b = .pure (a, .complete 0) := by
  rcases h with ⟨hinf, hb⟩ | ⟨hzero, hb⟩
  · have hpick : pickNan a b = none := by simp [pickNan, ha, hb]
    have hkind : kindOf a ≠ .infinity := mt kindOf_eq_infinity_iff.mp hinf
    simp only [premUndenormal, hpick, kindOf_infinity hb]
  · have hpick : pickNan a b = none := by simp [pickNan, hzero, hb]
    simp only [premUndenormal, hpick, kindOf_zero hzero, kindOf_normal hb]

end

/-! ## The statement -/

section
variable (cw : Word) {a b : TempReal} (ha : classOf a = .normal) (hb : classOf b = .normal)
include ha hb

theorem premValue_normal : premValue cw a b = premReduce cw (signOf a) (magOf a) (magOf b) := by
  rw [premValue_eq, if_neg (by simp [ha]), premUndenormal_normal cw ha hb]

/-- With an exponent difference below 64 the reduction is complete. -/
theorem premValue_complete (hd : magLog (magOf a) - magLog (magOf b) < 64) :
    let q : Nat := ⌊magVal (magOf a) / magVal (magOf b)⌋.toNat
    let rest : ℚ := magVal (magOf a) - q * magVal (magOf b)
    (rest = 0 ∨ (2 : ℚ) ^ (-16382 : Int) ≤ rest) →
      ∃ r, premValue cw a b = { flags := 0, value := some (r, .complete q) } ∧ signOf r = signOf a ∧
        magVal (magOf r) = rest := by
  obtain ⟨_, hreduce⟩ := premReduce_exact cw ha hb
  rw [premShift, if_pos hd, if_pos hd, zpow_zero, mul_one] at hreduce
  rw [premValue_normal cw ha hb, Int.floor_toNat]
  exact hreduce

/-- From 64 on it takes a multiple of the modulus away, and is incomplete. -/
theorem premValue_incomplete (hd : 64 ≤ magLog (magOf a) - magLog (magOf b)) :
    ∃ k : Nat, 1 ≤ k ∧ magVal (magOf a) - k * magVal (magOf b) < magVal (magOf a) ∧
      0 ≤ magVal (magOf a) - k * magVal (magOf b) ∧
      (magVal (magOf a) - k * magVal (magOf b) = 0 ∨
        (2 : ℚ) ^ (-16382 : Int) ≤ magVal (magOf a) - k * magVal (magOf b) →
        ∃ r, premValue cw a b = { flags := 0, value := some (r, .incomplete) } ∧ signOf r = signOf a ∧
          magVal (magOf r) = magVal (magOf a) - k * magVal (magOf b)) := by
  obtain ⟨hrest, hreduce⟩ := premReduce_exact cw ha hb
  have hB := magVal_magOf_pos hb
  rw [if_neg (by omega)] at hreduce
  rw [premValue_normal cw ha hb]
  obtain ⟨j, hj, hj'⟩ : ∃ j : Nat, premShift (magLog (magOf a) - magLog (magOf b)) = j ∧
      (j : Int) < magLog (magOf a) - magLog (magOf b) := by
    refine ⟨(premShift (magLog (magOf a) - magLog (magOf b))).toNat, ?_, ?_⟩ <;>
    · rw [premShift, if_neg (by omega)]
      omega
  rw [hj, two_zpow_nat] at hrest hreduce
  have hwhole : 1 ≤ ⌊magVal (magOf a) / (magVal (magOf b) * (2 ^ j : Nat))⌋₊ := by
    rw [Nat.le_floor_iff (div_nonneg (magVal_nonneg _) (by positivity)), Nat.cast_one, one_le_div (by positivity)]
    rw [magLog_of_normal one_ne_zero ha rfl, magLog_of_normal one_ne_zero hb rfl] at hj'
    calc magVal (magOf b) * (2 ^ j : Nat)
        ≤ (2 : ℚ) ^ ((expField b : Int) - 16383 + 1) * (2 ^ j : Nat) :=
          mul_le_mul_of_nonneg_right (magVal_normal_bounds hb).2.le (by positivity)
      _ = (2 : ℚ) ^ ((expField b : Int) - 16383 + 1 + j) := by rw [← two_zpow_nat, ← zpow_add₀ two_ne_zero]
      _ ≤ (2 : ℚ) ^ ((expField a : Int) - 16383) := zpow_le_zpow_right₀ one_le_two (by omega)
      _ ≤ magVal (magOf a) := (magVal_normal_bounds ha).1
  generalize ⌊magVal (magOf a) / (magVal (magOf b) * (2 ^ j : Nat))⌋₊ = q at *
  have hmultiple : (q : ℚ) * (magVal (magOf b) * (2 ^ j : Nat)) = (q * 2 ^ j : Nat) * magVal (magOf b) := by
    push_cast
    ring
  rw [hmultiple] at hrest hreduce
  have hk : 1 ≤ q * 2 ^ j := Nat.mul_pos hwhole (by positivity)
  refine ⟨q * 2 ^ j, hk, ?_, hrest, hreduce⟩
  have hpos : 0 < ((q * 2 ^ j : Nat) : ℚ) * magVal (magOf b) := mul_pos (by exact_mod_cast hk) hB
  linarith

end

/-- Settles O38: the reduction of normals, and the special operands after the check for a denormal. -/
theorem remainderIsExact : Obligations.RemainderIsExact := by
  intro cw a b
  refine ⟨fun ha hb => ⟨premValue_complete cw ha hb, premValue_incomplete cw ha hb⟩, fun h => ?_, fun ha h => ?_,
    fun h => ?_⟩
  · rw [premValue_eq, premUndenormal_nan cw h, signalBefore_invalid]
  · have hinvalid : premUndenormal cw a b = signalBefore cw flagI (indefinite, .invalid) := by
      rcases h with h | h | h | h | ⟨h, hb⟩
      · exact premUndenormal_invalid cw ha (by simp [h]) (.inr (.inr (.inl (kindOf_zero h))))
      · exact premUndenormal_invalid cw ha (by simp [h]) (.inl (by simp [kindOf, h]))
      · exact premUndenormal_invalid cw ha (by simp [h]) (.inl (by simp [kindOf, h]))
      · exact premUndenormal_invalid cw ha (by simp [h]) (.inr (.inl (by simp [kindOf, h])))
      · exact premUndenormal_invalid cw ha hb (.inr (.inr (.inr (kindOf_infinity h))))
    rw [premValue_eq, hinvalid, signalBefore_invalid]
  · have hunchanged : premUndenormal cw a b = .pure (a, .complete 0) := by
      rcases h with ⟨ha, hinf, hb⟩ | ⟨hzero, hb⟩
      · exact premUndenormal_unchanged cw ha (.inl ⟨hinf, hb⟩)
      · exact premUndenormal_unchanged cw (by simp [hzero]) (.inr ⟨hzero, hb⟩)
    rw [premValue_eq, hunchanged]
    rfl

end Sys2Proof.Machine
end

section
/-! PROOFS. The comparisons (spec 42): the values compare as rationals, a comparison writes the condition code and pops,
and FXAM reports a class. -/

namespace Sys2Proof.Machine

open Sys2Proof.Safety
open Sys2Proof.Config (Mag)

/-! ## The order of finite values (spec 42 R252 (5)) -/

/-- How two rationals compare. -/
def orderOf (x y : ℚ) : Order := if y < x then .greater else if x < y then .less else .equal

/-- On dyadic magnitudes `magLt` compares the values. -/
theorem magLt_iff {x y : Mag} (hx : x.den = 1) (hy : y.den = 1) : magLt x y = true ↔ magVal x < magVal y := by
  have hx' := shiftLeft_toNat_val (n := x.num) (min_le_left x.exp y.exp)
  have hy' := shiftLeft_toNat_val (n := y.num) (min_le_right x.exp y.exp)
  have hscale : (0 : ℚ) < (2 : ℚ) ^ min x.exp y.exp := by positivity
  simp only [magLt, magVal, hx, hy, mul_one, Nat.cast_one, div_one, decide_eq_true_eq]
  rw [← hx', ← hy', mul_lt_mul_iff_left₀ hscale, Nat.cast_lt]

theorem magLt_magOf (a b : TempReal) : magLt (magOf a) (magOf b) = decide (magVal (magOf a) < magVal (magOf b)) := by
  rw [Bool.eq_iff_iff, magLt_iff rfl rfl, decide_eq_true_eq]

theorem magZero_magOf (a : TempReal) : magZero (magOf a) = decide (magVal (magOf a) = 0) := by
  rw [Bool.eq_iff_iff, magZero_iff one_ne_zero, decide_eq_true_eq]

theorem regVal_of_negative {r : TempReal} (h : signOf r = true) : regVal r = -magVal (magOf r) := by
  rw [regVal_eq, h, signFactor, if_pos rfl, neg_one_mul]

/-- The order by signs and magnitudes is the order of the values: with the signs given, it is left to compare
magnitudes, none of which is negative. -/
theorem orderFinite_eq (a b : TempReal) : orderFinite a b = orderOf (regVal a) (regVal b) := by
  have ha := magVal_nonneg (magOf a)
  have hb := magVal_nonneg (magOf b)
  simp only [orderFinite, magZero_magOf, magLt_magOf, orderOf]
  rcases (signOf a).eq_false_or_eq_true with hsa | hsa <;> rcases (signOf b).eq_false_or_eq_true with hsb | hsb
  · grind [regVal_of_negative hsa, regVal_of_negative hsb]
  · grind [regVal_of_negative hsa, regVal_of_positive hsb]
  · grind [regVal_of_positive hsa, regVal_of_negative hsb]
  · grind [regVal_of_positive hsa, regVal_of_positive hsb]

/-! ## The checks of a comparison, one equation per class of operands (spec 42 R252) -/

/-- The first check of a comparison: D for a denormal or an unnormal. -/
def denormalCheck (cw : Word) (a b : TempReal) : Out Unit :=
  if comparesDenormal a || comparesDenormal b then signalBefore cw flagD () else .pure ()

section
variable (cw : Word) {a b : TempReal}

theorem comparesDenormal_iff : comparesDenormal a = true ↔ classOf a = .denormal ∨ classOf a = .unnormal := by
  simp [comparesDenormal]

theorem denormalCheck_signals
    (h : classOf a = .denormal ∨ classOf a = .unnormal ∨ classOf b = .denormal ∨ classOf b = .unnormal) :
    denormalCheck cw a b = signalBefore cw flagD () := by
  rw [← or_assoc, ← comparesDenormal_iff, ← comparesDenormal_iff, ← Bool.or_eq_true] at h
  exact if_pos h

theorem denormalCheck_passes
    (h : ¬(classOf a = .denormal ∨ classOf a = .unnormal ∨ classOf b = .denormal ∨ classOf b = .unnormal)) :
    denormalCheck cw a b = .pure () := by
  rw [← or_assoc, ← comparesDenormal_iff, ← comparesDenormal_iff, ← Bool.or_eq_true] at h
  exact if_neg h

theorem compareValues_nan (h : classOf a = .nan ∨ classOf b = .nan) :
    compareValues cw a b = (denormalCheck cw a b).andThen fun _ => signalBefore cw flagI .unordered := by
  simp only [compareValues, denormalCheck, h, if_true]

theorem compareValues_finite (ha : classOf a ≠ .nan) (hb : classOf b ≠ .nan) (ha' : classOf a ≠ .infinity)
    (hb' : classOf b ≠ .infinity) :
    compareValues cw a b = (denormalCheck cw a b).andThen fun _ => .pure (orderOf (regVal a) (regVal b)) := by
  simp only [compareValues, denormalCheck, ha, hb, ha', hb', or_self, if_false, decide_false, orderFinite_eq]

theorem compareValues_infinities (ha : classOf a = .infinity) (hb : classOf b = .infinity) :
    compareValues cw a b = .pure (if cw.getLsbD 12 = false ∨ signOf a = signOf b then .equal
      else if signOf a then .less else .greater) := by
  simp [compareValues, comparesDenormal, ha, hb, affine, apply_ite (Out.pure (α := Order))]

/-- An infinity against a finite value that signals no D lies beyond it, or is not comparable with it. -/
theorem compareValues_infinity_left (ha : classOf a = .infinity)
    (hb : classOf b = .normal ∨ classOf b = .zero ∨ classOf b = .pseudoZero) :
    compareValues cw a b = if cw.getLsbD 12 then .pure (if signOf a then .less else .greater)
      else signalBefore cw flagI .unordered := by
  rcases hb with hb | hb | hb <;> simp [compareValues, comparesDenormal, ha, hb, affine]

theorem compareValues_infinity_right (ha : classOf a = .infinity)
    (hb : classOf b = .normal ∨ classOf b = .zero ∨ classOf b = .pseudoZero) :
    compareValues cw b a = if cw.getLsbD 12 then .pure (if signOf a then .greater else .less)
      else signalBefore cw flagI .unordered := by
  rcases hb with hb | hb | hb <;> simp [compareValues, comparesDenormal, ha, hb, affine]

end

/-- Settles O45, by the class of the operands. -/
theorem comparisonIsByValue : Obligations.ComparisonIsByValue := by
  intro cw a b
  refine ⟨fun ha hb => ?_, fun ha ha' hb hb' h => ?_, fun ha hb => compareValues_infinities cw ha hb,
    fun ha hb => ⟨?_, ?_⟩, fun h => ?_⟩
  · rw [compareValues_finite cw (by grind) (by grind) (by grind) (by grind), denormalCheck_passes cw (by grind),
      Out.andThen_pure]
    rfl
  · rw [compareValues_finite cw ha' hb' ha hb, denormalCheck_signals cw h, signalD_andThen]
    cases cw.getLsbD 1 with
    | true => exact congrArg (Out.mk · _) BitVec.or_zero
    | false => rfl
  · rw [compareValues_infinity_left cw ha hb, signalBefore_invalid]
    rfl
  · rw [compareValues_infinity_right cw ha hb, signalBefore_invalid]
    rfl
  · rw [compareValues_nan cw h]
    split
    case isTrue hden =>
      rw [denormalCheck_signals cw hden, signalD_andThen, signalBefore_invalid, BitVec.or_comm]
    case isFalse hplain =>
      rw [denormalCheck_passes cw hplain, Out.andThen_pure, signalBefore_invalid]

/-! ## The stack after pops (spec 40 R186) -/

theorem Npx.pops_onlyStack (n : Npx) (k : Nat) : OnlyStackChanges n (n.pops k) := by
  induction k generalizing n with
  | zero => rfl
  | succ k ih => exact (ih n.pop).trans rfl

theorem Npx.pops_regs (n : Npx) (k : Nat) : (n.pops k).regs = n.regs := by
  induction k generalizing n with
  | zero => rfl
  | succ k ih => exact ih n.pop

theorem Npx.pops_top (n : Npx) (k : Nat) : (n.pops k).top = n.top + BitVec.ofNat 3 k := by
  induction k generalizing n with
  | zero => exact (BitVec.add_zero _).symm
  | succ k ih =>
    calc (n.pop.pops k).top = n.top + 1 + BitVec.ofNat 3 k := ih n.pop
      _ = n.top + BitVec.ofNat 3 (k + 1) := by rw [BitVec.add_assoc, Nat.add_comm k 1, BitVec.ofNat_add]; rfl

/-- The first k registers from the top are empty after k pops. -/
theorem Npx.tag_pops (n : Npx) (k : Nat) (q : RegNum) :
    (n.pops k).tag q = if (q - n.top).toNat < k then .empty else n.tag q := by
  induction k generalizing n with
  | zero => rfl
  | succ k ih =>
    have hrest : (n.pop.pops k).tag q = if (q - (n.top + 1)).toNat < k then .empty else n.pop.tag q := ih n.pop
    rw [Npx.pops, hrest]
    by_cases hq : q = n.top
    case pos =>
      subst hq
      simp
    case neg =>
      have hdist : (q - (n.top + 1)).toNat < k ↔ (q - n.top).toNat < k + 1 := by bv_omega
      simp only [hdist, Npx.tag_pop_other n q hq]

/-! ## What a comparison leaves behind (spec 42 R251) -/

/-- The condition code of a comparison and its pops. -/
def Npx.setOrder (pops : Nat) (n : Npx) (v : Order) : Npx := { n with cc := ccOfOrder v n.cc }.pops pops

theorem Npx.compared_eq_commit (n : Npx) (o : Out Order) (pops : Nat) :
    n.compared o pops = n.commit o (Npx.setOrder pops) := rfl

/-- A comparison that found the order v has written its code and popped. -/
structure Compared (s t : State) (pops : Nat) (v : Order) : Prop where
  code : ∃ free, t.npx.cc = ccOfOrder v free
  top : t.npx.top = s.npx.top + BitVec.ofNat 3 pops
  tags : ∀ q, t.npx.tag q = if (q - s.npx.top).toNat < pops then .empty else s.npx.tag q

section
variable {i : Instr} {s t : State} {sel off : Word} {cc : BitVec 4} {o : Out Order} {pops : Nat}

theorem Npx.setOrder_onlyStack (pops : Nat) (n : Npx) (v : Order) :
    ∃ c, OnlyStackChanges { n with cc := c } (n.setOrder pops v) := ⟨_, Npx.pops_onlyStack _ pops⟩

theorem Committed.compared (h : Committed i s t (s.taken i sel off cc) o (Npx.setOrder pops)) {v : Order}
    (hv : o.value = some v) : Compared s t pops v := by
  have hdone := h.done v hv
  refine ⟨⟨cc, ?_⟩, ?_, fun q => ?_⟩ <;> rw [hdone, Npx.setOrder]
  · exact congrArg Npx.cc (Npx.pops_onlyStack _ pops)
  · exact Npx.pops_top ..
  · exact Npx.tag_pops ..

/-- No comparison changes a register. -/
theorem Committed.compared_regs (h : Committed i s t (s.taken i sel off cc) o (Npx.setOrder pops)) :
    t.npx.regs = s.npx.regs := by
  cases hv : o.value with
  | none => exact (h.ended hv).regs
  | some v =>
    rw [h.done v hv]
    exact Npx.pops_regs ..

end

/-! ## The comparisons with a register (spec 42 R253, R255, R257) -/

theorem exec_compareRegForm {i : Instr} {k : RegNum} {pops : Nat} (s : State) (h : compareRegForm i = some (k, pops)) :
    exec i s = neuRegister false i (Npx.compareReg k pops) s := by
  cases i with
  | fcomSti | fcompSti | fcompp =>
    cases h
    rfl
  | _ => cases h

/-- Settles O43: the order found is written and the popping forms pop. -/
theorem comparisonRegisterForms : Obligations.ComparisonRegisterForms := by
  intro i k pops s hform hready
  obtain ⟨t, hnext, h⟩ := neuRegister_completes (pc := false) (i := i)
    (o := fun n => (n.fetch 0).andThen fun a => (n.fetch k).andThen fun b => compareValues n.cw a b) hready
    (fun hpc => nomatch hpc) (Npx.setOrder_onlyStack pops)
  refine ⟨t, (exec_compareRegForm s hform).trans hnext, h.frame, h.memory, h.flags, h.compared_regs, h.ended,
    fun v hv => ?_⟩
  obtain ⟨⟨free, hcode⟩, htop, htags⟩ := h.compared hv
  refine ⟨?_, htop, htags⟩
  rw [hcode]
  exact ccOfOrder_codes v free

/-! ## The comparisons with memory, and FTST (spec 42 R254, R256, R258 to R260) -/

/-- What a comparison with a source finds: an empty ST against a denormal signals I and D at once (spec 60 R366). -/
def Npx.orderWith (n : Npx) (b : Source) : Out Order :=
  if n.isEmpty 0 ∧ b.denormal = true then
    (signalBefore n.cw (flagI ||| flagD) ()).andThen fun _ => compareValues n.cw indefinite b.value
  else (n.fetch 0).andThen fun a => compareValues n.cw a b.value

theorem Npx.compareMem_eq_commit (b : Source) (pops : Nat) (n : Npx) :
    n.compareMem b pops = n.commit (n.orderWith b) (Npx.setOrder pops) := by
  simp only [Npx.compareMem, Npx.compared_eq_commit, Npx.orderWith, Bool.and_eq_true]

theorem exec_compareMemForm {i : Instr} {m : MemArg} {ty : MemType} {pops : Nat} (s : State)
    (h : compareMemForm i = some (m, ty, pops)) :
    exec i s = neuLoad false i m ty.words none (fun b => Npx.compareMem (ty.source b) pops) s := by
  cases i with
  | fcomM32r | fcomM64r | ficomM16i | ficomM32i | fcompM32r | fcompM64r | ficompM16i | ficompM32i =>
    cases h
    rfl
  | _ => cases h

/-- Each of the two kinds takes the source b and ends in the `commit` of the order found. -/
theorem exec_compareSource {i : Instr} {b : Source} {pops : Nat} {s : State} (hready : Ready s)
    (h : (∃ m ty, compareMemForm i = some (m, ty, pops) ∧ OperandFits s i m ty.words false ∧
        b = ty.source ((operandAddresses s i m (2 * ty.words)).map s.mem.read)) ∨
      (∃ p, i = .ftst p ∧ pops = 0 ∧ b = { value := 0, denormal := false })) :
    ∃ sel off cc, exec i s =
      .next (s.finish i ((s.taken i sel off cc).commit (s.npx.orderWith b) (Npx.setOrder pops))) := by
  rcases h with ⟨m, ty, hform, hfits, rfl⟩ | ⟨p, rfl, rfl, rfl⟩
  · refine ⟨(s.operandSegment i m).sel, s.operandOffset m, Config.freeCC s.draws, ?_⟩
    rw [exec_compareMemForm s hform,
      neuLoad_ready (pc := false) hready (fun hpc => nomatch hpc) hfits (memType_words_ne_zero ty),
      Npx.compareMem_eq_commit]
    rfl
  · refine ⟨Config.freeDataSel s.draws, Config.freeDataOff s.draws, Config.freeCC s.draws, ?_⟩
    refine (neuRegister_ready (pc := false) hready (fun hpc => nomatch hpc)).trans ?_
    rw [Npx.compareMem_eq_commit]
    rfl

/-- Settles O44: the order of ST and the source is written and the popping forms pop. -/
theorem comparisonMemoryForms : Obligations.ComparisonMemoryForms := by
  intro i b pops s hready hform
  obtain ⟨sel, off, cc, hnext⟩ := exec_compareSource hready hform
  have h := committed_finish_withCc (i := i) (s := s) (Npx.setOrder_onlyStack pops) (s.npx.orderWith b) sel off cc
  refine ⟨_, hnext, h.frame, h.memory, h.flags, h.compared_regs, h.ended, fun v hv => ?_⟩
  obtain ⟨⟨free, hcode⟩, htop, htags⟩ := h.compared hv
  refine ⟨?_, htop, htags⟩
  rw [hcode]
  exact ccOfOrder_codes v free

/-! ## FXAM (spec 42 R262) -/

theorem Npx.raise_zero (n : Npx) : n.raise 0 = n := congrArg (fun f => { n with flags := f }) BitVec.or_zero

/-- FXAM changes the condition code alone. -/
theorem fxam_completes (p : List Seg) {s : State} (hready : Ready s) :
    ∃ t, exec (.fxam p) s = .next t ∧ NumericFrame (.fxam p) s t ∧ SameMemory s t ∧ StackKept s t ∧
      t.npx.flags = s.npx.flags ∧ t.npx.cc = (s.latched (.fxam p)).examine.cc := by
  have honly : OnlyStackChanges ((s.taken (.fxam p) (s.latched (.fxam p)).fdpSel (s.latched (.fxam p)).fdpOff
      (s.latched (.fxam p)).examine.cc).raise 0) (s.finish (.fxam p) (s.latched (.fxam p)).examine).npx := by
    rw [Npx.raise_zero]
    rfl
  obtain ⟨hframe, -⟩ := numericFrame_of_onlyStackChanges (s := s)
    (t := s.finish (.fxam p) (s.latched (.fxam p)).examine) ⟨rfl, rfl⟩ honly
  exact ⟨_, neuRegister_ready (pc := false) hready (fun hpc => nomatch hpc), hframe, fun _ => rfl, ⟨rfl, rfl, rfl⟩,
    rfl, rfl⟩

theorem ccOfClass_sign (c : Class) (neg : Bool) : (ccOfClass c neg).getLsbD 1 = neg := by
  cases c <;> exact ccOf_c1 ..

/-- C3 C2 C0 of a class, by the exponent field and the significand. -/
theorem ccOfClass_codes (r : TempReal) (neg : Bool) :
    ((ccOfClass (classOf r) neg).getLsbD 3, (ccOfClass (classOf r) neg).getLsbD 2,
        (ccOfClass (classOf r) neg).getLsbD 0) =
      (if expField r = 0 then if sigOf r = 0 then (true, false, false) else (true, true, false)
      else if expField r = 0x7FFF then if sigOf r = 2 ^ 63 then (false, true, true) else (false, false, true)
      else if 2 ^ 63 ≤ sigOf r then (false, true, false) else (false, false, false)) := by
  unfold classOf
  split_ifs <;> simp only [ccOfClass, ccOf_c3, ccOf_c2, ccOf_c0] <;> omega

/-- Settles O46: the condition code FXAM writes is that of an empty register, or of the class and sign of ST. -/
theorem examineReportsTheClass : Obligations.ExamineReportsTheClass := by
  intro p s hready
  obtain ⟨t, hexec, hframe, hmemory, hstack, hflags, hcc⟩ := fxam_completes p hready
  refine ⟨t, hexec, hframe, hmemory, hstack, hflags, fun hempty => ?_, fun hfull => ?_⟩
  · have hcode : t.npx.cc = ccEmpty (s.latched (.fxam p)).cc := hcc.trans (if_pos hempty)
    rw [hcode]
    exact ⟨ccOf_c3 .., ccOf_c0 ..⟩
  · have hcode : t.npx.cc = ccOfClass (classOf (s.npx.st 0)) (signOf (s.npx.st 0)) :=
      hcc.trans (if_neg (Bool.not_eq_true _ ▸ hfull))
    rw [hcode]
    exact ⟨ccOfClass_sign .., ccOfClass_codes ..⟩

end Sys2Proof.Machine
end

section
/-! PROOFS. The transcendentals (spec 43): which `commit` each ends in, and which flags its value can signal. -/

namespace Sys2Proof.Machine

open Sys2Proof.Safety

/-! ## The flags a transcendental signals (spec 43 R282, 60 R365) -/

/-- An invalid operand sets U and P at most. -/
theorem transcFlags_unsignalled (draw : Nat) : transcFlags draw &&& 0b001111#6 = 0 := by
  unfold transcFlags
  rw [BitVec.and_assoc]
  exact BitVec.and_zero

/-- What neither of two computations signals, one after the other does not signal. -/
theorem Out.andThen_unsignalled {α β : Type} {o : Out α} {f : α → Out β} {m : Flags} (ho : o.flags &&& m = 0)
    (hf : ∀ v, (f v).flags &&& m = 0) : (o.andThen f).flags &&& m = 0 := by
  unfold Out.andThen
  split
  · exact ho
  · next v _ =>
    change (o.flags ||| (f v).flags) &&& m = 0
    rw [BitVec.and_or_distrib_right, ho, hf v]
    rfl

/-- A value of TRANSC signals no I, D or Z: a zero signals nothing. -/
theorem deliverValue_flags (cw : Word) (v : Config.SignedMag) : (deliverValue cw v).flags &&& 0b000111#6 = 0 := by
  unfold deliverValue
  split
  · exact BitVec.zero_and
  · exact deliver_flags ..

theorem classOf_zeroOf (neg : Bool) : classOf (zeroOf neg) = .zero := by cases neg <;> decide

section
variable (cw : Word) (draw : Nat) (x y : TempReal)

/-- FPATAN signals U and P at most, in its range and out of it. -/
theorem patanValue_flags : (patanValue cw draw x y).flags &&& 0b001111#6 = 0 := by
  unfold patanValue
  dsimp only
  split
  · split
    · exact BitVec.zero_and
    · exact deliverAllowed_flags (flagU ||| flagP) cw _
  · exact transcFlags_unsignalled draw

/-- In range FPATAN of Y = 0 is a zero of open sign, and signals nothing. -/
theorem patanValue_zero {x y : TempReal} (hrange : patanInRange y x = true) (hy : classOf y = .zero) :
    (patanValue cw draw x y).flags = 0 ∧ ∃ z, (patanValue cw draw x y).value = some z ∧ classOf z = .zero := by
  simp only [patanValue, hrange, hy, if_true]
  exact ⟨rfl, _, rfl, classOf_zeroOf _⟩

/-- FYL2X signals O, U and P at most in its range, U and P at most out of it. -/
theorem yl2xValue_flags :
    (yl2xValue cw draw x y).flags &&& (if yl2xInRange x y then 0b000111#6 else 0b001111#6) = 0 := by
  unfold yl2xValue
  split
  · exact deliverValue_flags ..
  · exact transcFlags_unsignalled draw

/-- FYL2XP1 signals U and P at most, in its range and out of it. -/
theorem yl2xp1Value_flags : (yl2xp1Value cw draw x y).flags &&& 0b001111#6 = 0 := by
  unfold yl2xp1Value
  split
  · exact deliverAllowed_flags (flagU ||| flagP) cw _
  · exact transcFlags_unsignalled draw

/-- FPTAN signals P at most in its range, where both results are bounded by P, and U and P at most out of it. -/
theorem ptanValue_flags :
    (ptanValue cw draw x).flags &&& (if ptanInRange x then 0b011111#6 else 0b001111#6) = 0 := by
  unfold ptanValue
  split
  · exact Out.andThen_unsignalled (deliverAllowed_flags flagP cw _) fun _ =>
      Out.andThen_unsignalled (deliverAllowed_flags flagP cw _) fun _ => BitVec.zero_and
  · exact transcFlags_unsignalled draw

end

/-! ## FPATAN, FYL2X and FYL2XP1 (spec 43 R283, R286, R288, R289) -/

/-- Each of the three runs `transc2` on its own value. -/
theorem exec_transc2Form {i : Instr} {f : Nat → Word → TempReal → TempReal → Out TempReal} (s : State)
    (h : transc2Form i = some f) :
    exec i s = neuRegister false i (fun n => n.transc2 (f s.draws n.cw)) s := by
  cases i with
  | fpatan | fyl2x | fyl2xp1 =>
    cases h
    rfl
  | _ => cases h

/-- Settles O41, from the `commit` each of the three ends in and the flags of its value. -/
theorem transcendentalsOfTwoOperands : Obligations.TranscendentalsOfTwoOperands := by
  intro i f s hform hready
  obtain ⟨t, hnext, h⟩ := neuRegister_committed (i := i)
    (o := fun n => if n.isEmpty 0 || n.isEmpty 1 then signalBefore n.cw flagI indefinite
      else f s.draws n.cw (n.st 0) (n.st 1))
    (effect := fun n v => (n.setSt 1 v).pop) hready fun _ _ => rfl
  refine ⟨⟨t, (exec_transc2Form s hform).trans hnext, h.frame, h.memory, h.flags, h.ended,
    fun v hv => replacedPopped_of_setSt_pop _ (h.done v hv)⟩, fun hfull0 hfull1 => ?_⟩
  rw [hfull0, hfull1]
  refine ⟨?_, ?_, ?_⟩ <;> rintro p rfl <;> cases hform
  · exact ⟨patanValue_flags .., patanValue_zero _ _⟩
  · exact yl2xValue_flags ..
  · exact yl2xp1Value_flags ..

/-! ## FPTAN (spec 43 R283, R285) -/

/-- Settles O42: both results are written as those of FXTRACT are. -/
theorem partialTangent : Obligations.PartialTangent := by
  intro p s hready
  obtain ⟨t, hnext, h⟩ := neuRegister_committed (i := .fptan p)
    (o := fun n => if n.isEmpty 0 || !n.isEmpty 7 then signalBefore n.cw flagI (indefinite, indefinite)
      else ptanValue n.cw s.draws (n.st 0))
    (effect := fun n v => (n.setSt 0 v.1).pushValue v.2) hready fun _ _ => rfl
  refine ⟨⟨t, hnext, h.frame, h.memory, h.flags, h.ended, fun v hv => ?_⟩, fun hfull hroom => ?_⟩
  · have hex : Extracted s t v.1 v.2 := extracted_of_pushValue _ (h.done v hv)
    exact ⟨hex.top, hex.exponent, hex.significand, hex.exponentTag, hex.significandTag, hex.others⟩
  · rw [hfull, hroom]
    exact ptanValue_flags ..

end Sys2Proof.Machine
end

section
/-! PROOFS. The invariant every step keeps (spec 10 R50, 45 R327, R335, 70 R441, R442): what each shape of instruction
does to memory, to a pending image and to what is in flight, and the whole table. -/

namespace Sys2Proof.Machine

open Sys2Proof.Safety

/-! ## The NPX's part of the invariant -/

/-- What `Inv` asks of the NPX. -/
structure ActivityInv (n : Npx) : Prop where
  masked : n.imagePending = true → masksOf n.cw = 0b111111#6 ∨ n.busy = true
  moving : ∀ g, n.inFlight = some g → 0 < g.wordsLeft ∧ g.wordsLeft < 47

theorem inv_iff {s : State} : Inv s ↔ s.mem.wf = true ∧ ActivityInv s.npx :=
  ⟨fun h => ⟨h.memory, h.masked, h.moving⟩, fun ⟨hwf, h⟩ => ⟨hwf, h.masked, h.moving⟩⟩

theorem inv_of_npx_eq {s t : State} (hs : Inv s) (hwf : t.mem.wf = true) (hnpx : t.npx = s.npx) : Inv t :=
  inv_iff.mpr ⟨hwf, hnpx ▸ (inv_iff.mp hs).2⟩

/-- The pending image and what is in flight are the same. -/
structure SameActivity (n n' : Npx) : Prop where
  imagePending : n'.imagePending = n.imagePending
  inFlight : n'.inFlight = n.inFlight

section
variable {n n₁ n₂ : Npx}

theorem SameActivity.refl (n : Npx) : SameActivity n n := ⟨rfl, rfl⟩

theorem SameActivity.trans (h₁ : SameActivity n n₁) (h₂ : SameActivity n₁ n₂) : SameActivity n n₂ :=
  ⟨h₂.imagePending.trans h₁.imagePending, h₂.inFlight.trans h₁.inFlight⟩

/-- While no image is pending the masks do not matter. -/
theorem SameActivity.activityInv (h : SameActivity n n₁) (hn : ActivityInv n) (himage : n.imagePending = false) :
    ActivityInv n₁ where
  masked hpending := by
    rw [h.imagePending, himage] at hpending
    cases hpending
  moving g hg := hn.moving g (h.inFlight ▸ hg)

theorem Npx.inFlight_of_not_busy (h : n.busy = false) : n.inFlight = none :=
  Option.isNone_iff_eq_none.mp (Option.isSome_eq_false_iff.mp h)

/-- Nothing in flight, and all exceptions masked if an image is pending. -/
theorem activityInv_of_idle (hidle : n.inFlight = none)
    (hmasks : n.imagePending = true → masksOf n.cw = 0b111111#6) : ActivityInv n where
  masked hpending := .inl (hmasks hpending)
  moving g hg := by
    rw [hidle] at hg
    cases hg

/-- After interrupt 9 the NEU may stay busy with the words that lie outside (spec 60 R393). -/
theorem Npx.afterOverrun_activityInv {words inside : Nat} (hinside : 0 < inside) (hlt : inside < words)
    (hwords : words ≤ 47) (himage : n.imagePending = false) (s : State) (i : Instr) (m : MemArg) (sets clears : Flags)
    (new : Npx) : ActivityInv (n.afterOverrun s i m (words - inside) sets clears new) where
  masked hpending := by
    rw [Npx.afterOverrun_imagePending, himage] at hpending
    cases hpending
  moving g hg := by
    rcases n.afterOverrun_cases s i m (words - inside) sets clears new with ⟨_, hn⟩ | ⟨_, _, g', hg', hleft, _⟩
    · rw [hn] at hg
      cases hg
    · cases hg'.symm.trans hg
      omega

end

/-! ## The effects of the numeric instructions (spec 40 to 44) -/

section
variable (n : Npx)

theorem Npx.pops_activity (k : Nat) : SameActivity n (n.pops k) := by
  induction k generalizing n with
  | zero => exact .refl n
  | succ k ih =>
    have hpop : SameActivity n n.pop := ⟨rfl, rfl⟩
    exact hpop.trans (ih n.pop)

theorem Npx.commit_activity {α : Type} (o : Out α) {effect : Npx → α → Npx}
    (heff : ∀ n v, SameActivity n (effect n v)) : SameActivity n (n.commit o effect) := by
  rcases n.commit_cases o effect with ⟨_, h⟩ | ⟨v, _, h⟩
  · exact h ▸ ⟨rfl, rfl⟩
  · have hraise : SameActivity n (n.raise o.flags) := ⟨rfl, rfl⟩
    exact h ▸ hraise.trans (heff _ v)

theorem Npx.compared_activity (o : Out Order) (pops : Nat) : SameActivity n (n.compared o pops) :=
  n.commit_activity _ fun n v =>
    have hcc : SameActivity n { n with cc := ccOfOrder v n.cc } := ⟨rfl, rfl⟩
    hcc.trans (Npx.pops_activity _ pops)

theorem Npx.push_activity (v : TempReal) : SameActivity n (n.push v) := n.commit_activity _ fun _ _ => ⟨rfl, rfl⟩

theorem Npx.pushSource_activity (src : Source) : SameActivity n (n.pushSource src) := by
  unfold Npx.pushSource
  split
  · exact n.commit_activity _ fun _ _ => ⟨rfl, rfl⟩
  · exact n.push_activity _

theorem Npx.loadUndefined_activity (draw : Nat) (dest : Option RegNum) :
    SameActivity n (n.loadUndefined draw dest) := by
  cases dest <;> exact ⟨rfl, rfl⟩

theorem Npx.loadEnvironment_activity (b : List Byte) : SameActivity n (n.loadEnvironment b) := by
  unfold Npx.loadEnvironment
  dsimp only
  split <;> exact ⟨rfl, rfl⟩

theorem Npx.restore_activity (b : List Byte) : SameActivity n (n.restore b) :=
  (n.loadEnvironment_activity b).trans ⟨rfl, rfl⟩

end

/-! ## All exceptions masked (spec 45 R327, R335) -/

/-- FNSTENV sets the six masks. -/
theorem masksOf_maskAll (n : Npx) : masksOf n.maskAll.cw = 0b111111#6 := by
  calc masksOf n.maskAll.cw = masksOf n.cw ||| BitVec.allOnes 6 := BitVec.extractLsb'_or
    _ = 0b111111#6 := BitVec.or_allOnes

theorem initialCw_cases (draw : Nat) : initialCw draw = 0x03FF ∨ initialCw draw = 0x03BF := by
  unfold initialCw
  split
  · exact .inl rfl
  · exact .inr rfl

/-- An initialization sets the six masks. -/
theorem masksOf_initialCw (draw : Nat) : masksOf (initialCw draw) = 0b111111#6 := by
  rcases initialCw_cases draw with h | h <;> rw [h] <;> rfl

/-! ## The invariant through each shape of instruction -/

/-- A next state, if there is one, meets the invariant. -/
def AnswersInv (o : Outcome) : Prop := ∀ t, o = .next t → Inv t

theorem answersInv_next {t : State} (ht : Inv t) : AnswersInv (.next t) := by
  intro t' h
  cases h
  exact ht

theorem answersInv_refused (r : Refusal) : AnswersInv (.refused r) := fun _ h => nomatch h

section
variable {checks pc write : Bool} {i : Instr} {m : MemArg} {words pops : Nat} {s : State}

theorem inv_takeInterrupt (hs : Inv s) (v : IntVector) : Inv (takeInterrupt v s) :=
  inv_of_npx_eq hs (takeInterruptFrom_wf _ _ _ s hs.memory) (takeInterrupt_npx v s)

theorem inv_finish (hwf : s.mem.wf = true) {n : Npx} (hn : ActivityInv n) : Inv (s.finish i n) :=
  inv_iff.mpr ⟨hwf, hn⟩

theorem inv_takeOverrun (hwf : s.mem.wf = true) {n : Npx} (hn : ActivityInv n) : Inv (takeOverrun s n) :=
  inv_iff.mpr ⟨takeInterruptFrom_wf _ _ _ _ hwf, (takeOverrun_npx s n).symm ▸ hn⟩

theorem State.storeOperand_wf (hwf : s.mem.wf = true) (i : Instr) (m : MemArg) (b : List Byte) :
    (s.storeOperand i m b).mem.wf = true := s.storeBytes_wf _ _ _ hwf

/-- An ESC that runs finds no pending image, and, where it checks BUSY, nothing in flight (spec 70 R441). -/
theorem startEsc_answersInv {absent run : State → Outcome} (hs : Inv s) (habsent : AnswersInv (absent s))
    (hrun : s.npx.imagePending = false → (checks = true → s.npx.inFlight = none) → AnswersInv (run s)) :
    AnswersInv (startEsc checks absent run s) := by
  intro t h
  rcases startEsc_next h with rfl | ⟨_, h⟩ | ⟨_, _, rfl⟩ | ⟨_, _, rfl⟩ | ⟨_, himage, hidle, h⟩
  · exact inv_takeInterrupt hs _
  · exact habsent t h
  · exact hs
  · exact inv_takeInterrupt hs _
  · exact hrun himage (fun hc => Npx.inFlight_of_not_busy (hidle hc).1) t h

theorem skipEsc_answersInv (hs : Inv s) : AnswersInv (skipEsc i s) := answersInv_next (inv_of_npx_eq hs hs.memory rfl)

theorem checkOperand_answersInv {run : Nat → State → Outcome} (hs : Inv s)
    (hrun : ∀ inside, 0 < inside → AnswersInv (run inside s)) :
    AnswersInv (checkOperand i m words write run s) := by
  by_cases hout : s.operandWordsInside i m words write = 0
  · rw [checkOperand_outside hout]
    exact answersInv_next (inv_takeInterrupt hs _)
  · rw [checkOperand_inside (Nat.pos_of_ne_zero hout)]
    exact hrun _ (Nat.pos_of_ne_zero hout)

theorem checkOperand_skipEsc_answersInv (hs : Inv s) :
    AnswersInv (checkOperand i m words write (fun _ => skipEsc i) s) :=
  checkOperand_answersInv hs fun _ _ => skipEsc_answersInv hs

theorem usingPrecision_answersInv {run : State → Outcome} (hrun : AnswersInv (run s)) :
    AnswersInv (usingPrecision pc run s) := by
  unfold usingPrecision
  split
  · exact answersInv_refused _
  · exact hrun

theorem neuRegister_answersInv {f : Npx → Npx} (hs : Inv s) (hf : ∀ n, SameActivity n (f n)) :
    AnswersInv (neuRegister pc i f s) := by
  refine startEsc_answersInv hs (skipEsc_answersInv hs) fun himage _ => usingPrecision_answersInv ?_
  have hlatch : SameActivity s.npx (s.latched i) := ⟨rfl, rfl⟩
  exact answersInv_next (inv_finish hs.memory ((hlatch.trans (hf _)).activityInv (inv_iff.mp hs).2 himage))

theorem neuLoad_answersInv {dest : Option RegNum} {f : List Byte → Npx → Npx} (hs : Inv s) (hwords : words ≤ 47)
    (hf : ∀ b n, SameActivity n (f b n)) : AnswersInv (neuLoad pc i m words dest f s) := by
  refine startEsc_answersInv hs (checkOperand_skipEsc_answersInv hs) fun himage _ =>
    usingPrecision_answersInv (checkOperand_answersInv hs fun inside hinside => ?_)
  have hlatch : SameActivity s.npx (s.latchedMem i m) := ⟨rfl, rfl⟩
  dsimp only
  split
  · next hlt =>
    have hpending := (hlatch.trans (Npx.loadUndefined_activity _ s.draws dest)).imagePending.trans himage
    exact answersInv_next (inv_takeOverrun hs.memory (Npx.afterOverrun_activityInv hinside hlt hwords hpending ..))
  · exact answersInv_next (inv_finish hs.memory ((hlatch.trans (hf _ _)).activityInv (inv_iff.mp hs).2 himage))

theorem commitStore_answersInv {inside : Nat} {o : Out Nat} (hs : Inv s) (himage : s.npx.imagePending = false)
    (hwords : words ≤ 47) (hinside : 0 < inside) : AnswersInv (commitStore i m words pops inside o s) := by
  have hraise : SameActivity s.npx ((s.latchedMem i m).raise o.flags) := ⟨rfl, rfl⟩
  have hpops := hraise.trans (Npx.pops_activity _ pops)
  have hstore := State.storeOperand_wf hs.memory i m
  unfold commitStore
  dsimp only
  split
  · exact answersInv_next (inv_finish hs.memory (hraise.activityInv (inv_iff.mp hs).2 himage))
  split
  · next hlt =>
    refine answersInv_next (inv_takeOverrun (hstore _) (Npx.afterOverrun_activityInv hinside hlt hwords ?_ ..))
    split
    · exact hpops.imagePending.trans himage
    · exact himage
  · exact answersInv_next (inv_finish (hstore _) (hpops.activityInv (inv_iff.mp hs).2 himage))

theorem neuStore_answersInv {value : Npx → Out Nat} (hs : Inv s) (hwords : words ≤ 47) :
    AnswersInv (neuStore i m words pops value s) :=
  startEsc_answersInv hs (checkOperand_skipEsc_answersInv hs) fun himage _ =>
    checkOperand_answersInv hs fun _ hinside => commitStore_answersInv hs himage hwords hinside

theorem controlRegister_answersInv {f : Npx → Npx} (hs : Inv s)
    (hf : s.npx.imagePending = false → ActivityInv (f s.npx)) : AnswersInv (controlRegister checks i f s) :=
  startEsc_answersInv hs (skipEsc_answersInv hs) fun himage _ => answersInv_next (inv_finish hs.memory (hf himage))

theorem controlRegister_answersInv_of_sameActivity {f : Npx → Npx} (hs : Inv s) (hf : ∀ n, SameActivity n (f n)) :
    AnswersInv (controlRegister checks i f s) :=
  controlRegister_answersInv hs ((hf s.npx).activityInv (inv_iff.mp hs).2)

theorem storeControl_answersInv {value : State → Word} (hs : Inv s) : AnswersInv (storeControl i m value s) := by
  have hstore := State.storeOperand_wf hs.memory i m
  exact startEsc_answersInv hs
    (checkOperand_answersInv hs fun _ _ => answersInv_next (inv_of_npx_eq hs (hstore _) rfl)) fun _ _ =>
    checkOperand_answersInv hs fun _ _ => answersInv_next (inv_of_npx_eq hs (hstore _) rfl)

theorem loadControl_answersInv {f : Npx → List Byte → Npx} (hs : Inv s) (hwords : words ≤ 47)
    (hf : ∀ n b, SameActivity n (f n b)) : AnswersInv (loadControl i m words f s) := by
  refine startEsc_answersInv hs (checkOperand_skipEsc_answersInv hs) fun himage _ =>
    checkOperand_answersInv hs fun inside hinside => ?_
  dsimp only
  split
  · next hlt =>
    exact answersInv_next (inv_takeOverrun hs.memory
      (Npx.afterOverrun_activityInv hinside hlt hwords ((hf _ _).imagePending.trans himage) ..))
  · exact answersInv_next (inv_finish hs.memory ((hf _ _).activityInv (inv_iff.mp hs).2 himage))

/-- A busy NEU holds the image back; an idle one is left with all exceptions masked and the image pending, or has taken
interrupt 9 and then no image is pending (spec 45 R327, R335, 70 R441, R442; log 19, log 44). -/
theorem storeImage_answersInv {image : State → List Byte} {after : Npx → Npx} (hs : Inv s) (hwords : words ≤ 47)
    (hpending : (after s.npx).imagePending = s.npx.imagePending) (hmasks : masksOf (after s.npx).cw = 0b111111#6)
    (hidle : s.npx.inFlight = none → (after s.npx).inFlight = none) :
    AnswersInv (storeImage i m words image after s) := by
  refine startEsc_answersInv hs (checkOperand_skipEsc_answersInv hs) fun himage _ =>
    checkOperand_answersInv hs fun inside hinside => ?_
  have hstore := State.storeOperand_wf hs.memory i m
  dsimp only
  split
  · next hbusy => exact answersInv_next (inv_finish hs.memory ⟨fun _ => .inr hbusy, hs.moving⟩)
  next hbusy =>
  have hnone := Npx.inFlight_of_not_busy (Bool.eq_false_of_not_eq_true hbusy)
  split
  · next hlt =>
    refine answersInv_next (inv_takeOverrun (hstore _) (Npx.afterOverrun_activityInv hinside hlt hwords ?_ ..))
    split
    · exact hpending.trans himage
    · exact himage
  · exact answersInv_next (inv_finish (hstore _) (activityInv_of_idle (hidle hnone) fun _ => hmasks))

theorem execFnstswAx_answersInv {p : List Seg} (hs : Inv s) : AnswersInv (execFnstswAx p s) :=
  startEsc_answersInv hs (answersInv_next (inv_of_npx_eq hs hs.memory rfl)) fun _ _ =>
    answersInv_next (inv_of_npx_eq hs hs.memory rfl)

theorem NotRun.inv {t : State} (h : NotRun i s t) (hs : Inv s) : Inv t := by
  cases h with
  | waits => exact hs
  | trapped v => exact inv_takeInterrupt hs v
  | skipped => exact inv_of_npx_eq hs hs.memory rfl

/-- A WAIT that completes ends the pending image (spec 70 R441). -/
theorem execFwait_answersInv {p : List Seg} (hs : Inv s) : AnswersInv (execFwait p s) := by
  intro t h
  rcases execFwait_next h with h | rfl
  · exact h.inv hs
  · exact inv_iff.mpr ⟨hs.memory, ⟨(fun hpending => nomatch hpending), hs.moving⟩⟩

end

/-! ## The whole table -/

/-- Every instruction, by its shape; the last case holds the register instructions that end in `commit`. -/
theorem exec_answersInv {s : State} (hs : Inv s) (i : Instr) : AnswersInv (exec i s) := by
  unfold exec
  cases i with
  | fnop p => exact neuRegister_answersInv hs .refl
  | fxam p | fincstp p | fdecstp p | ffreeSti p k => exact neuRegister_answersInv hs fun _ => ⟨rfl, rfl⟩
  | fldM32r p m | fldM64r p m => exact neuLoad_answersInv hs (by decide) fun _ n => n.pushSource_activity _
  | fldM80r p m | fildM16i p m | fildM32i p m | fildM64i p m | fbldM80d p m =>
    exact neuLoad_answersInv hs (by decide) fun _ n => n.push_activity _
  | faddM32r p m | faddM64r p m | fiaddM16i p m | fiaddM32i p m | fsubM32r p m | fsubM64r p m | fisubM16i p m
  | fisubM32i p m | fsubrM32r p m | fsubrM64r p m | fisubrM16i p m | fisubrM32i p m | fmulM32r p m | fmulM64r p m
  | fimulM16i p m | fimulM32i p m | fdivM32r p m | fdivM64r p m | fidivM16i p m | fidivM32i p m | fdivrM32r p m
  | fdivrM64r p m | fidivrM16i p m | fidivrM32i p m =>
    exact neuLoad_answersInv hs (by decide) fun _ n => n.commit_activity _ fun _ _ => ⟨rfl, rfl⟩
  | fcomM32r p m | fcomM64r p m | ficomM16i p m | ficomM32i p m | fcompM32r p m | fcompM64r p m | ficompM16i p m
  | ficompM32i p m =>
    exact neuLoad_answersInv hs (by decide) fun _ n => n.compared_activity ..
  | fcomSti p k | fcompSti p k | fcompp p | ftst p => exact neuRegister_answersInv hs fun n => n.compared_activity ..
  | fstM32r p m | fstM64r p m | fstpM32r p m | fstpM64r p m | fstpM80r p m | fistM16i p m | fistM32i p m
  | fistpM16i p m | fistpM32i p m | fistpM64i p m | fbstpM80d p m =>
    exact neuStore_answersInv hs (by decide)
  | fninit p => exact controlRegister_answersInv hs fun _ => activityInv_of_idle rfl fun _ => masksOf_initialCw _
  | fneni p | fndisi p | fnclex p | fsetpm p =>
    exact controlRegister_answersInv_of_sameActivity hs fun _ => ⟨rfl, rfl⟩
  | fldcwM2 p m => exact loadControl_answersInv hs (by decide) fun _ _ => ⟨rfl, rfl⟩
  | fldenvM14 p m => exact loadControl_answersInv hs (by decide) Npx.loadEnvironment_activity
  | frstorM94 p m => exact loadControl_answersInv hs (by decide) Npx.restore_activity
  | fnstcwM2 p m | fnstswM2 p m => exact storeControl_answersInv hs
  | fnstenvM14 p m => exact storeImage_answersInv hs (by decide) rfl (masksOf_maskAll _) id
  | fnsaveM94 p m => exact storeImage_answersInv hs (by decide) rfl (masksOf_initialCw _) fun _ => rfl
  | fnstswAx p => exact execFnstswAx_answersInv hs
  | fwait p => exact execFwait_answersInv hs
  | _ => exact neuRegister_answersInv hs fun n => n.commit_activity _ fun _ _ => ⟨rfl, rfl⟩

/-- Settles O6: a step runs an instruction of the table, or bytes that do not decode, which keep the NPX and the
canonical form of memory. -/
theorem invariantKept : Obligations.InvariantKept := by
  intro s t hs h
  unfold step at h
  split at h
  · exact exec_answersInv hs _ t h
  · obtain ⟨hnpx, _, hwf⟩ := undecoded_keeps h
    exact inv_of_npx_eq hs (hwf hs.memory) hnpx

end Sys2Proof.Machine
end

section
/-! PROOFS. WAIT, the control word and the status word, initialization and the stack pointer (spec 45 R319 to R328, R338
to R346). -/

namespace Sys2Proof.Machine

open Sys2Proof.Safety

/-! ## WAIT (spec 45 R345, 60 R392, 70 R426, R441) -/

section
variable {p : List Seg} {s : State} (hmpem : (s.cpu.mp && s.cpu.em) = false) (hmpts : (s.cpu.mp && s.cpu.ts) = false)
include hmpem hmpts

/-- A WAIT that nothing traps or holds up ends the pending image. -/
theorem execFwait_completes (hpresent : s.platform.npxPresent = true) (hidle : s.npx.busy = false)
    (herror : s.cpu.em = true ∨ s.error = false) :
    execFwait p s = .next ({ s with npx := { s.npx with imagePending := false } }.advance (.fwait p)) := by
  have hno : (!s.cpu.em && s.error) = false := by
    rcases herror with h | h
    · rw [h]
      rfl
    · rw [h, Bool.and_false]
  simp only [execFwait, hmpem, hmpts, hpresent, hno, hidle, Bool.not_true, Bool.false_eq_true, if_false]

theorem execFwait_absent (habsent : s.platform.npxPresent = false) :
    execFwait p s = .next (s.advance (.fwait p)) := by
  simp only [execFwait, hmpem, hmpts, habsent, Bool.not_false, Bool.false_eq_true, if_false, if_true]

end

/-- Settles O17, from the two ways in which a WAIT completes. -/
theorem waitCompletes : Obligations.WaitCompletes := by
  intro p s hmpem hmpts
  refine ⟨fun hpresent hidle herror => ?_, fun habsent => ?_⟩
  · exact ⟨_, execFwait_completes hmpem hmpts hpresent hidle herror, ⟨rfl, rfl⟩, fun _ => rfl, rfl⟩
  · exact ⟨_, execFwait_absent hmpem hmpts habsent, ⟨rfl, rfl⟩, fun _ => rfl, rfl⟩

/-! ## ERROR inactive (spec 10 R29) -/

theorem errorActive_of_noFlags {n : Npx} (pl : Platform) (h : n.flags = 0) : errorActive pl n = false := by
  have hno : unmaskedFlag n.flags n.cw = false := by
    rw [unmaskedFlag, h]
    exact bne_eq_false_iff_eq.mpr BitVec.zero_and
  rw [errorActive, hno, Bool.false_and]

theorem errorActive_of_masked {n : Npx} (pl : Platform) (h : masksOf n.cw = 0b111111#6) : errorActive pl n = false := by
  have hno : unmaskedFlag n.flags n.cw = false := by
    rw [unmaskedFlag, h]
    exact bne_eq_false_iff_eq.mpr BitVec.and_zero
  rw [errorActive, hno, Bool.false_and]

/-! ## Control instructions without operand (spec 45 R319 to R321, R325, R346) -/

theorem Npx.tag_init (n : Npx) (draw : Nat) (q : RegNum) : (n.init draw).tag q = .empty := by simp [Npx.tag]

/-- What is in flight and ERROR do not hold up a no-wait instruction, which changes the NPX and IP alone. -/
theorem controlRegister_completes {checks : Bool} {i : Instr} {f : Npx → Npx} {s : State}
    (h : Ready s ∨ checks = false ∧ Passed s) :
    ∃ t, controlRegister checks i f s = .next t ∧ OnlyIpMoves i s t ∧ SameMemory s t ∧ t.npx = f s.npx := by
  refine ⟨s.finish i (f s.npx), ?_, ⟨rfl, rfl⟩, fun _ => rfl, rfl⟩
  rcases h with h | ⟨rfl, h⟩
  · exact controlRegister_ready h
  · exact controlRegister_passed h

/-- Settles O55, from the NPX that each of the five instructions leaves. -/
theorem controlWithoutOperand : Obligations.ControlWithoutOperand := by
  intro p s
  refine ⟨fun h => ?_, fun h => ?_,
    fun h => controlRegister_completes (i := .fsetpm p) (f := fun n => { n with pm := true }) (.inl h),
    fun h => controlRegister_completes (i := .fneni p) (f := fun n => n) (.inr ⟨rfl, h⟩),
    fun h => controlRegister_completes (i := .fndisi p) (f := fun n => n) (.inr ⟨rfl, h⟩)⟩
  · obtain ⟨t, hexec, hip, hmem, hnpx⟩ :=
      controlRegister_completes (i := .fninit p) (f := fun n => n.init s.draws) (.inr ⟨rfl, h⟩)
    have herror : t.error = false := errorActive_of_noFlags _ (by rw [hnpx, Npx.init_flags])
    have hpointers : PointersAgree s.npx t.npx := hnpx ▸ ⟨rfl, rfl, rfl, rfl, rfl⟩
    refine ⟨t, hexec, hip, hmem, hpointers.kept, ?_⟩
    rw [hnpx]
    exact ⟨initialCw_cases _, rfl, rfl, Npx.tag_init _ _, rfl, rfl, rfl, herror, rfl⟩
  · obtain ⟨t, hexec, hip, hmem, hnpx⟩ :=
      controlRegister_completes (i := .fnclex p) (f := fun n => { n with flags := 0 }) (.inr ⟨rfl, h⟩)
    exact ⟨t, hexec, hip, hmem, hnpx, errorActive_of_noFlags _ (by rw [hnpx])⟩

/-! ## The control word and the status word in memory and in AX (spec 45 R322 to R324, R328) -/

/-- Bytes stored to an operand are read back at its addresses. -/
theorem State.storeOperand_stored (s : State) (i : Instr) (m : MemArg) {bytes : List Byte} (hwf : s.mem.wf = true)
    (hlength : bytes.length ≤ 2 ^ 16) :
    Stored (s.storeOperand i m bytes) (operandAddresses s i m bytes.length) bytes :=
  Memory.map_read_writeAll _ _ _ (s.addresses_nodup _ _ hlength) (s.addresses_length ..) hwf

theorem storeControl_completes {i : Instr} {m : MemArg} {value : State → Word} {s : State} (h : Passed s)
    (hfits : OperandFits s i m 1 true) :
    ∃ t, storeControl i m value s = .next t ∧ OnlyIpMoves i s t ∧ t.npx = s.npx ∧
      SameMemoryOutside s t (operandAddresses s i m 2) ∧
      (s.mem.wf = true → Stored t (operandAddresses s i m 2) [lowByte (value s), highByte (value s)]) :=
  ⟨_, storeControl_passed h hfits, ⟨rfl, rfl⟩, rfl, s.storeOperand_outside i m (bytesOfWords [value s]),
    fun hwf => s.storeOperand_stored i m hwf (Nat.le_of_ble_eq_true rfl)⟩

theorem loadControl_completes {i : Instr} {m : MemArg} {words : Nat} {f : Npx → List Byte → Npx} {s : State}
    (h : Ready s) (hfits : OperandFits s i m words false) (hw : words ≠ 0) :
    ∃ t, loadControl i m words f s = .next t ∧ OnlyIpMoves i s t ∧ SameMemory s t ∧
      t.npx = f s.npx ((operandAddresses s i m (2 * words)).map s.mem.read) :=
  ⟨_, loadControl_ready h hfits hw, ⟨rfl, rfl⟩, fun _ => rfl, rfl⟩

theorem statusWordNow_of_not_busy {pl : Platform} {n : Npx} (draw : Nat) (h : n.busy = false) :
    statusWordNow pl n draw = statusWord pl n := statusWordNow_idle (Npx.inFlight_of_not_busy h)

/-- A busy NEU shows B set (spec 45 R324). -/
theorem statusWordNow_b_of_busy {pl : Platform} {n : Npx} (draw : Nat) (h : n.busy = true) :
    (statusWordNow pl n draw).getLsbD 15 = true := by
  obtain ⟨g, hg⟩ := Option.isSome_iff_exists.mp h
  rw [statusWordNow_busy hg]
  exact statusOf_b ..

theorem execFnstswAx_passed {p : List Seg} {s : State} (h : Passed s) :
    execFnstswAx p s = .next
      ({ s with cpu := { s.cpu with ax := statusWordNow s.platform s.npx s.draws } }.finish (.fnstswAx p) s.npx) :=
  startEsc_passed h

/-- Settles O54: a word read from its two bytes, and a word stored as its two bytes. -/
theorem controlWordTransfers : Obligations.ControlWordTransfers := by
  intro p m s
  refine ⟨fun hready hfits => ?_, fun h hfits => ?_, fun h hfits => ?_, fun h => ?_⟩
  · obtain ⟨t, hexec, hip, hmem, hnpx⟩ := loadControl_completes (i := .fldcwM2 p m)
      (f := fun n b => { n with cw := wordOfBytes b 0 }) hready hfits (by decide)
    exact ⟨t, hexec, hip, hmem, _, _, rfl, hnpx⟩
  · exact storeControl_completes (i := .fnstcwM2 p m) (value := fun s => s.npx.cw) h hfits
  · obtain ⟨t, hexec, hip, hnpx, hout, hstored⟩ := storeControl_completes (i := .fnstswM2 p m)
      (value := fun s => statusWordNow s.platform s.npx s.draws) h hfits
    exact ⟨_, t, hexec, hip, hnpx, statusWordNow_of_not_busy _, statusWordNow_b_of_busy _, hout, hstored⟩
  · exact ⟨_, _, execFnstswAx_passed h, rfl, fun _ => rfl, rfl, rfl, statusWordNow_of_not_busy _,
      statusWordNow_b_of_busy _⟩

/-! ## The stack pointer and the tags (spec 10 R13, R23, 45 R338 to R341) -/

/-- An instruction that signals nothing and changes only the stack. -/
theorem neuRegister_unflagged {i : Instr} {f : Npx → Npx} {s : State} (hready : Ready s)
    (hf : ∀ n, OnlyStackChanges n (f n)) :
    ∃ t, neuRegister false i f s = .next t ∧ NumericFrame i s t ∧ SameMemory s t ∧ t.npx.flags = s.npx.flags ∧
      t.npx = f (s.latched i) := by
  have hstack : OnlyStackChanges ((s.latched i).raise 0) (s.finish i (f (s.latched i))).npx := by
    rw [Npx.raise_zero]
    exact hf _
  obtain ⟨hframe, hflags⟩ := numericFrame_of_onlyStackChanges (s := s)
    (t := s.finish i (f (s.latched i))) ⟨rfl, rfl⟩ hstack
  exact ⟨_, neuRegister_ready hready nofun, hframe, fun _ => rfl, hflags.trans BitVec.or_zero, rfl⟩

/-- FINCSTP and FDECSTP: TOP alone moves (spec 45 R338, R339). -/
theorem neuRegister_movesTop {i : Instr} {s : State} (hready : Ready s) (f : RegNum → RegNum) :
    ∃ t, neuRegister false i (fun n => { n with top := f n.top }) s = .next t ∧ NumericFrame i s t ∧ SameMemory s t ∧
      t.npx.flags = s.npx.flags ∧ t.npx.regs = s.npx.regs ∧ t.npx.tags = s.npx.tags ∧ t.npx.top = f s.npx.top := by
  obtain ⟨t, hexec, hframe, hmem, hflags, hnpx⟩ := neuRegister_unflagged (i := i)
    (f := fun n => { n with top := f n.top }) hready fun _ => rfl
  refine ⟨t, hexec, hframe, hmem, hflags, ?_⟩
  rw [hnpx]
  exact ⟨rfl, rfl, rfl⟩

theorem execFfreeSti_ready (p : List Seg) (k : RegNum) {s : State} (hready : Ready s) :
    ∃ t, execFfreeSti p k s = .next t ∧ NumericFrame (.ffreeSti p k) s t ∧ SameMemory s t ∧
      t.npx.flags = s.npx.flags ∧ t.npx.regs = s.npx.regs ∧ t.npx.top = s.npx.top ∧
      t.npx.tag (s.npx.top + k) = .empty ∧ ∀ q, q ≠ s.npx.top + k → t.npx.tag q = s.npx.tag q := by
  obtain ⟨t, hexec, hframe, hmem, hflags, hnpx⟩ := neuRegister_unflagged (i := .ffreeSti p k)
    (f := fun n => n.setTag (n.phys k) .empty) hready fun _ => rfl
  refine ⟨t, hexec, hframe, hmem, hflags, ?_⟩
  rw [hnpx]
  exact ⟨rfl, rfl, Npx.tag_setTag_same _ _ _, fun q hq => Npx.tag_setTag_other _ _ q _ hq⟩

theorem execFnop_ready (p : List Seg) {s : State} (hready : Ready s) :
    ∃ t, execFnop p s = .next t ∧ NumericFrame (.fnop p) s t ∧ SameMemory s t ∧ StackKept s t ∧
      t.npx.flags = s.npx.flags := by
  obtain ⟨t, hexec, hframe, hmem, hflags, hnpx⟩ := neuRegister_unflagged (i := .fnop p) (f := fun n => n) hready
    fun _ => rfl
  have hstack : StackKept s t := ⟨(congrArg Npx.regs hnpx :), (congrArg Npx.tags hnpx :), (congrArg Npx.top hnpx :)⟩
  exact ⟨t, hexec, hframe, hmem, hstack, hflags⟩

/-- FFREE ST(k) is DD C0 + k (spec 45 R340). -/
theorem encode_ffreeSti (k : RegNum) : encode (.ffreeSti [] k) = [0xDD, 0xC0 + k.zeroExtend 8] := by
  revert k
  decide

theorem RegNum.toNat_sub_one (k : RegNum) : (k - 1).toNat = (k.toNat + 7) % 8 := by
  rw [BitVec.toNat_sub, Nat.add_comm]
  rfl

theorem RegNum.toNat_add_one (k : RegNum) : (k + 1).toNat = (k.toNat + 1) % 8 := BitVec.toNat_add ..

/-- Settles O59: encodings, the four instructions, and the laws of push and pop. -/
theorem stackHousekeeping : Obligations.StackHousekeeping := by
  refine ⟨rfl, rfl, encode_ffreeSti, fun p k s hready => ⟨?_, ?_, ?_, ?_⟩, fun n v => ?_⟩
  · exact neuRegister_movesTop (i := .fincstp p) hready (· + 1)
  · exact neuRegister_movesTop (i := .fdecstp p) hready (· - 1)
  · exact execFfreeSti_ready p k hready
  · exact execFnop_ready p hready
  refine ⟨RegNum.toNat_sub_one _, ?_, Npx.tag_setReg_same .., RegNum.toNat_add_one _, n.tag_pop_top, rfl,
    BitVec.sub_add_cancel .., fun q hq => Npx.reg_setReg_other _ _ q v hq⟩
  calc (n.pushValue v).st 0 = (n.pushValue v).reg (n.top - 1) := congrArg _ (n.pushValue v).phys_zero
    _ = v := Npx.reg_setReg_same ..

end Sys2Proof.Machine
end

section
/-! PROOFS. The environment and the state image (spec 10 R46, R47, 45 R326 to R337): the words and bytes of an image,
what it shows of the NPX it was stored from, what an NPX takes from it, and the round trip. -/

namespace Sys2Proof.Machine

open Sys2Proof.Safety

/-! ## Words and bytes of an image (spec 20 R100, R102) -/

@[simp] theorem bytesOfWords_length (ws : List Word) : (bytesOfWords ws).length = 2 * ws.length := by
  induction ws with
  | nil => rfl
  | cons w ws ih =>
    rw [bytesOfWords, List.length_cons, List.length_cons, ih, List.length_cons]
    omega

/-- The words of an image are read back from its bytes. -/
theorem wordOfBytes_bytesOfWords (ws : List Word) (rest : List Byte) {k : Nat} (hk : k < ws.length) :
    wordOfBytes (bytesOfWords ws ++ rest) k = ws.getD k 0 := by
  induction ws generalizing k with
  | nil => cases hk
  | cons w ws ih =>
    cases k with
    | zero => exact wordOf_lowByte_highByte w
    | succ k => exact ih (Nat.lt_of_succ_lt_succ hk)

theorem two_pow_bits_succ (n : Nat) : 2 ^ (8 * (n + 1)) = 2 ^ 8 * 2 ^ (8 * n) := by
  rw [← Nat.pow_add, Nat.mul_succ, Nat.add_comm]

/-- The low n bytes of a number. -/
theorem leNat_leBytes (n v : Nat) : leNat (leBytes n v) = v % 2 ^ (8 * n) := by
  induction n generalizing v with
  | zero => exact (Nat.mod_one v).symm
  | succ n ih =>
    have htail : leBytes (n + 1) v = BitVec.ofNat 8 v :: leBytes n (v / 256) := by
      rw [leBytes, List.range_succ_eq_map, List.map_cons, List.map_map]
      congr 1
      refine List.map_congr_left fun k _ => ?_
      change BitVec.ofNat 8 (v >>> (8 * (k + 1))) = BitVec.ofNat 8 ((v / 256) >>> (8 * k))
      rw [Nat.shiftRight_eq_div_pow, Nat.shiftRight_eq_div_pow, Nat.div_div_eq_div_mul, Nat.mul_succ, Nat.add_comm,
        Nat.pow_add]
    rw [htail, leNat, ih, BitVec.toNat_ofNat, Nat.shiftLeft_eq, two_pow_bits_succ, Nat.mod_mul,
      Nat.mul_comm (2 ^ 8) (_ % _)]
    rfl

/-- Fields of equal length, laid out one after the other, are found by their position. -/
theorem take_drop_flatMap {f : Nat → List Byte} {len : Nat} (hlen : ∀ j, (f j).length = len) (l : List Nat) {k : Nat}
    (hk : k < l.length) : ((l.flatMap f).drop (len * k)).take len = f l[k] := by
  induction l generalizing k with
  | nil => cases hk
  | cons j l ih =>
    rw [List.flatMap_cons]
    cases k with
    | zero =>
      rw [Nat.mul_zero, List.drop_zero, List.take_left' (hlen j)]
      rfl
    | succ k =>
      rw [Nat.mul_succ, Nat.add_comm, ← hlen j, List.drop_length_add_append, hlen j, List.getElem_cons_succ]
      exact ih _

theorem leNat_lt (b : List Byte) : leNat b < 2 ^ (8 * b.length) := by
  induction b with
  | nil => exact Nat.one_pos
  | cons x b ih =>
    have hx := x.isLt
    rw [leNat, Nat.shiftLeft_eq, List.length_cons, two_pow_bits_succ]
    omega

/-! ## Tags and the tag word (spec 10 R39, R40) -/

@[simp] theorem Tag.ofCode_code (t : Tag) : Tag.ofCode t.code = t := by cases t <;> rfl

@[simp] theorem Tag.code_ofCode (c : BitVec 2) : (Tag.ofCode c).code = c := by
  revert c
  decide

/-- The tag of physical register p stands in bits 2p+1:2p. -/
theorem tagWord_extract (t : Vector Tag 8) (p : Fin 8) : (tagWord t).extractLsb' (2 * p.val) 2 = t[p].code := by
  unfold tagWord
  fin_cases p <;> dsimp only [Nat.reduceMul] <;> repeat rw [BitVec.extractLsb'_append_eq_of_le (by decide)]
  rotate_right
  · exact BitVec.extractLsb'_eq_self
  all_goals exact BitVec.extractLsb'_append_eq_right

theorem tagsOfWord_tagWord (t : Vector Tag 8) : tagsOfWord (tagWord t) = t := by
  ext p hp
  rw [tagsOfWord, Vector.getElem_ofFn, tagWord_extract t ⟨p, hp⟩]
  exact Tag.ofCode_code _

theorem extractLsb'_join_two (w : Word) (k len : Nat) :
    w.extractLsb' (k + 2) len ++ w.extractLsb' k 2 = w.extractLsb' k (len + 2) :=
  BitVec.extractLsb'_append_extractLsb'_eq_extractLsb' rfl

theorem tagWord_tagsOfWord (w : Word) : tagWord (tagsOfWord w) = w := by
  simp only [tagWord, tagsOfWord, Vector.getElem_ofFn, Tag.code_ofCode]
  rw [extractLsb'_join_two w 12 2, extractLsb'_join_two w 10, extractLsb'_join_two w 8, extractLsb'_join_two w 6,
    extractLsb'_join_two w 4, extractLsb'_join_two w 2, extractLsb'_join_two w 0]
  exact BitVec.extractLsb'_eq_self

/-! ## Pointers in Real-Address format (spec 10 R46) -/

theorem toNat_pointer20 (sel off : Word) : (pointer20 sel off).toNat = address20 sel off := by
  have hsel := sel.isLt
  have hoff := off.isLt
  rw [pointer20, BitVec.toNat_add, BitVec.toNat_shiftLeft, BitVec.toNat_setWidth, BitVec.toNat_setWidth,
    Nat.shiftLeft_eq, address20]
  omega

theorem toNat_append_low12 (hi : BitVec 4) (lo : BitVec 12) : (hi ++ lo).toNat = hi.toNat * 4096 + lo.toNat := by
  rw [BitVec.toNat_append, ← Nat.shiftLeft_add_eq_or_of_lt lo.isLt, Nat.shiftLeft_eq]

/-- Bit 11 of the opcode word is 0 (spec 10 R46). -/
theorem append_zero_append (hi : BitVec 4) (fop : BitVec 11) : hi ++ 0#1 ++ fop = hi ++ (0#1 ++ fop) :=
  BitVec.append_assoc

theorem toNat_zero_append (fop : BitVec 11) : (0#1 ++ fop).toNat = fop.toNat := by
  rw [BitVec.toNat_append, BitVec.toNat_ofNat, Nat.zero_mod, Nat.zero_shiftLeft, Nat.zero_or]

/-- The two words an image holds of a 20-bit address, whatever the low 12 bits of the second. -/
theorem imageAddress_split (a : BitVec 20) (lo : BitVec 12) :
    imageAddress (a.extractLsb' 0 16) (a.extractLsb' 16 4 ++ lo) = a.toNat ∧
      (a.extractLsb' 16 4 ++ lo).toNat % 4096 = lo.toNat := by
  have ha := a.isLt
  have hlo := lo.isLt
  rw [imageAddress, toNat_append_low12, BitVec.extractLsb'_toNat, BitVec.extractLsb'_toNat, Nat.shiftRight_eq_div_pow,
    Nat.shiftRight_zero]
  omega

/-- The address bits of the second word of a pointer, as a selector (log 20). -/
theorem toNat_and_addressBits (w : Word) : (w &&& (0xF000 : Word)).toNat = w.toNat / 4096 * 4096 := by
  have hshift : w &&& (0xF000 : Word) = (w >>> 12) <<< 12 := by
    ext k hk
    interval_cases k <;> simp
  have hw := w.isLt
  rw [hshift, BitVec.toNat_shiftLeft, BitVec.toNat_ushiftRight, Nat.shiftLeft_eq, Nat.shiftRight_eq_div_pow]
  omega

/-- A selector with the four high address bits in bits 15:12 gives the address back. -/
theorem imageAddress_taken (lo hi : Word) : (hi &&& (0xF000 : Word)).toNat * 16 + lo.toNat = imageAddress lo hi := by
  rw [toNat_and_addressBits, imageAddress]
  omega

/-! ## What an image shows and what an NPX takes from it (spec 45 R326, R329, R336, R337) -/

theorem environment_length (pl : Platform) (n : Npx) : (environment pl n).length = 7 := by
  unfold environment
  split <;> rfl

theorem environment_shown (pl : Platform) (n : Npx) (rest : List Byte) :
    EnvironmentShown pl n (wordOfBytes (bytesOfWords (environment pl n) ++ rest)) := by
  have hw : ∀ k < 7, wordOfBytes (bytesOfWords (environment pl n) ++ rest) k = (environment pl n).getD k 0 :=
    fun k hk => wordOfBytes_bytesOfWords _ _ (by rwa [environment_length])
  unfold EnvironmentShown
  rw [hw 0 (by decide), hw 1 (by decide), hw 2 (by decide), hw 3 (by decide), hw 4 (by decide), hw 5 (by decide),
    hw 6 (by decide)]
  refine ⟨rfl, rfl, rfl, ?_⟩
  unfold environment
  cases n.pm with
  | true => exact ⟨rfl, rfl, rfl, rfl⟩
  | false =>
    obtain ⟨hip, hfop⟩ := imageAddress_split (pointer20 n.fipSel n.fipOff) (0#1 ++ n.fop)
    obtain ⟨hdp, hzero⟩ := imageAddress_split (pointer20 n.fdpSel n.fdpOff) 0#12
    rw [toNat_pointer20, ← append_zero_append] at hip
    rw [← append_zero_append, toNat_zero_append] at hfop
    rw [toNat_pointer20] at hdp
    exact ⟨hip, hfop, hdp, hzero⟩

theorem Npx.loadEnvironment_taken (n : Npx) (b : List Byte) :
    EnvironmentTaken n (n.loadEnvironment b) (wordOfBytes b) := by
  unfold EnvironmentTaken Npx.loadEnvironment
  cases n.pm with
  | true => exact ⟨rfl, rfl, rfl, rfl, tagWord_tagsOfWord _, rfl, rfl, rfl, rfl, rfl⟩
  | false =>
    exact ⟨rfl, rfl, rfl, rfl, tagWord_tagsOfWord _, imageAddress_taken .., rfl, imageAddress_taken ..⟩

theorem Npx.restore_taken (n : Npx) (b : List Byte) : EnvironmentTaken n (n.restore b) (wordOfBytes b) :=
  n.loadEnvironment_taken b

theorem registerBytes_field (n : Npx) (k : RegNum) :
    ((registerBytes n).drop (10 * k.toNat)).take 10 = leBytes 10 (n.st k).toNat := by
  have h := take_drop_flatMap (fun j => leBytes_length 10 (n.st (BitVec.ofNat 3 j)).toNat) (List.range 8)
    (k := k.toNat) (by simpa using k.isLt)
  rwa [List.getElem_range, BitVec.ofNat_toNat, BitVec.setWidth_eq] at h

theorem registerBytes_length (n : Npx) : (registerBytes n).length = 80 := by
  simp [registerBytes, List.length_flatMap]

/-- Ten bytes hold all of a register. -/
theorem registers_shown (pl : Platform) (n : Npx) :
    RegistersShown n (bytesOfWords (environment pl n) ++ registerBytes n) := by
  intro k
  have hlength : (bytesOfWords (environment pl n)).length = 14 := by rw [bytesOfWords_length, environment_length]
  rw [← hlength, List.drop_length_add_append, registerBytes_field, leNat_leBytes]
  exact Nat.mod_eq_of_lt (n.st k).isLt

/-- ST(k) is the field of number k under the TOP just loaded. -/
theorem Npx.st_restore (n : Npx) (b : List Byte) (k : RegNum) :
    (n.restore b).st k = BitVec.ofNat 80 (leNat ((b.drop (14 + 10 * k.toNat)).take 10)) := by
  have hfield : ∀ top : RegNum, BitVec.ofNat 3 (top + k).toNat - top = k := by
    intro top
    rw [BitVec.ofNat_toNat, BitVec.setWidth_eq, BitVec.add_comm, BitVec.add_sub_cancel]
  simp only [Npx.st, Npx.reg, Npx.phys, Npx.restore, Vector.getElem_ofFn, hfield]

theorem Npx.restore_registersShown (n : Npx) (b : List Byte) : RegistersShown (n.restore b) b := by
  intro k
  have hlt : leNat ((b.drop (14 + 10 * k.toNat)).take 10) < 2 ^ 80 :=
    (leNat_lt _).trans_le (Nat.pow_le_pow_right (by decide) (Nat.mul_le_mul_left 8 (List.length_take_le ..)))
  rw [Npx.st_restore, BitVec.toNat_ofNat, Nat.mod_eq_of_lt hlt]

/-! ## The images stored (spec 45 R326, R327, R335, R336, 70 R441) -/

theorem storeImage_completes {i : Instr} {m : MemArg} {words : Nat} {image : State → List Byte} {after : Npx → Npx}
    {s : State} (h : Passed s) (hidle : s.npx.busy = false) (hfits : OperandFits s i m words true) (hw : words ≠ 0)
    (hw' : 2 * words ≤ 2 ^ 16) (hlength : (image s).length = 2 * words) :
    ∃ t, storeImage i m words image after s = .next t ∧ OnlyIpMoves i s t ∧
      t.npx = { after s.npx with imagePending := true } ∧
      SameMemoryOutside s t (operandAddresses s i m (2 * words)) ∧
      (s.mem.wf = true → (operandAddresses s i m (2 * words)).map t.mem.read = image s) := by
  have hout := s.storeOperand_outside i m (image s)
  have hstored := fun hwf => s.storeOperand_stored i m (bytes := image s) hwf (hlength ▸ hw')
  rw [hlength] at hout hstored
  exact ⟨_, storeImage_passed h hidle hfits hw, ⟨rfl, rfl⟩, rfl, hout, hstored⟩

/-- Settles O56: the bytes at the operand are the image, and the image shows the NPX. -/
theorem imageStores : Obligations.ImageStores := by
  intro p m s h hidle
  refine ⟨fun hfits => ?_, fun hfits => ?_⟩
  · obtain ⟨t, hexec, hip, hnpx, hout, himage⟩ := storeImage_completes (i := .fnstenvM14 p m)
      (image := fun s => bytesOfWords (environment s.platform s.npx)) (after := Npx.maskAll) h hidle hfits (by decide)
      (by decide) (by rw [bytesOfWords_length, environment_length])
    have herror : t.error = false := errorActive_of_masked _ (by rw [hnpx]; exact masksOf_maskAll _)
    refine ⟨t, hexec, hip, hnpx, herror, hout, fun hwf => ?_⟩
    rw [himage hwf, ← List.append_nil (bytesOfWords _)]
    exact environment_shown ..
  · obtain ⟨t, hexec, hip, hnpx, hout, himage⟩ := storeImage_completes (i := .fnsaveM94 p m)
      (image := fun s => bytesOfWords (environment s.platform s.npx) ++ registerBytes s.npx)
      (after := fun n => n.init s.draws) h hidle hfits (by decide) (by decide)
      (by rw [List.length_append, bytesOfWords_length, environment_length, registerBytes_length])
    have herror : t.error = false := errorActive_of_noFlags _ (by rw [hnpx]; rfl)
    have hpointers : PointersAgree s.npx t.npx := hnpx ▸ ⟨rfl, rfl, rfl, rfl, rfl⟩
    refine ⟨t, hexec, hip, hpointers.kept, ?_⟩
    rw [hnpx]
    refine ⟨rfl, rfl, rfl, initialCw_cases _, rfl, rfl, s.npx.tag_init s.draws, rfl, herror, hout, fun hwf => ?_⟩
    rw [himage hwf]
    exact ⟨environment_shown .., registers_shown _ _⟩

/-! ## The images loaded (spec 45 R329, R337) -/

theorem Npx.loadEnvironment_regs (n : Npx) (b : List Byte) : (n.loadEnvironment b).regs = n.regs := by
  unfold Npx.loadEnvironment
  dsimp only
  split <;> rfl

/-- Settles O57: an image load takes the words and the registers of the bytes at its operand. -/
theorem imageLoads : Obligations.ImageLoads := by
  intro p m s h
  refine ⟨fun hfits => ?_, fun hfits => ?_⟩
  · obtain ⟨t, hexec, hip, hmem, hnpx⟩ := loadControl_completes (i := .fldenvM14 p m) (f := Npx.loadEnvironment) h hfits
      (by decide)
    have hact := s.npx.loadEnvironment_activity ((operandAddresses s (.fldenvM14 p m) m 14).map s.mem.read)
    refine ⟨t, hexec, hip, hmem, ?_⟩
    rw [hnpx]
    exact ⟨Npx.loadEnvironment_regs .., Npx.loadEnvironment_pm ..,
      hact.inFlight.trans (Npx.inFlight_of_not_busy h.idle), hact.imagePending.trans h.noImage, Npx.loadEnvironment_taken ..⟩
  · obtain ⟨t, hexec, hip, hmem, hnpx⟩ := loadControl_completes (i := .frstorM94 p m) (f := Npx.restore) h hfits
      (by decide)
    have hact := s.npx.restore_activity ((operandAddresses s (.frstorM94 p m) m 94).map s.mem.read)
    refine ⟨t, hexec, hip, hmem, ?_⟩
    rw [hnpx]
    exact ⟨Npx.restore_pm .., hact.inFlight.trans (Npx.inFlight_of_not_busy h.idle),
      hact.imagePending.trans h.noImage, Npx.restore_taken .., Npx.restore_registersShown _ _⟩

/-! ## The round trip (spec 45 R336, R337) -/

theorem tagWord_injective {t t' : Vector Tag 8} (h : tagWord t = tagWord t') : t = t' := by
  rw [← tagsOfWord_tagWord t, h, tagsOfWord_tagWord]

theorem Npx.regs_eq_of_st {n n' : Npx} (htop : n'.top = n.top) (h : ∀ k, n'.st k = n.st k) : n'.regs = n.regs := by
  refine Vector.ext fun p hp => ?_
  have hst := h (BitVec.ofNat 3 p - n.top)
  have hsum : n.top + (BitVec.ofNat 3 p - n.top) = BitVec.ofNat 3 p := by
    rw [BitVec.add_comm, BitVec.sub_add_cancel]
  have hp' : (BitVec.ofNat 3 p).toNat = p := Nat.mod_eq_of_lt hp
  simpa only [Npx.st, Npx.phys, Npx.reg, htop, hsum, hp'] using hst

theorem statusWord_cc (pl : Platform) (n : Npx) :
    (statusWord pl n).extractLsb' 14 1 ++ (statusWord pl n).extractLsb' 8 3 = n.cc := by
  have hc3 : (statusWord pl n).extractLsb' 14 1 = n.cc.extractLsb' 3 1 := by
    ext k hk
    obtain rfl : k = 0 := by omega
    simpa [statusWord] using statusOf_c3 ..
  rw [hc3, statusWord, statusOf_c2c1c0]
  exact BitVec.extractLsb'_append_extractLsb' (w := 1) (len := 3)

section
variable {pl : Platform} {n m r : Npx} {w : Nat → Word} (hshown : EnvironmentShown pl n w)
  (htaken : EnvironmentTaken m r w)
include hshown htaken

/-- An NPX that takes the words another shows has its control, status and tag fields. -/
theorem fields_of_shown_taken :
    r.tags = n.tags ∧ r.top = n.top ∧ r.cc = n.cc ∧ r.flags = n.flags ∧ r.cw = n.cw := by
  obtain ⟨hcw, hstatus, htags, _⟩ := hshown
  obtain ⟨hcw', hcc', htop', hflags', htags', _⟩ := htaken
  refine ⟨tagWord_injective (htags'.trans htags), ?_, ?_, ?_, hcw'.trans hcw⟩
  · rw [htop', hstatus]
    exact statusOf_top ..
  · rw [hcc', hstatus]
    exact statusWord_cc pl n
  · rw [hflags', hstatus]
    exact statusOf_flags ..

theorem pointers_of_shown_taken_protected (hn : n.pm = true) (hm : m.pm = true) :
    r.fipSel = n.fipSel ∧ r.fipOff = n.fipOff ∧ r.fdpSel = n.fdpSel ∧ r.fdpOff = n.fdpOff := by
  obtain ⟨_, _, _, hpointers⟩ := hshown
  obtain ⟨_, _, _, _, _, hpointers'⟩ := htaken
  rw [if_pos hn] at hpointers
  rw [if_pos hm] at hpointers'
  obtain ⟨hipOff, hipSel, hdpOff, hdpSel⟩ := hpointers
  obtain ⟨hipOff', hipSel', hdpOff', hdpSel', _⟩ := hpointers'
  exact ⟨hipSel'.trans hipSel, hipOff'.trans hipOff, hdpSel'.trans hdpSel, hdpOff'.trans hdpOff⟩

theorem pointers_of_shown_taken_real (hn : n.pm = false) (hm : m.pm = false) :
    r.fop = n.fop ∧ address20 r.fipSel r.fipOff = address20 n.fipSel n.fipOff ∧
      address20 r.fdpSel r.fdpOff = address20 n.fdpSel n.fdpOff := by
  obtain ⟨_, _, _, hpointers⟩ := hshown
  obtain ⟨_, _, _, _, _, hpointers'⟩ := htaken
  rw [hn, if_neg Bool.false_ne_true] at hpointers
  rw [hm, if_neg Bool.false_ne_true] at hpointers'
  obtain ⟨hip, hfop, hdp, _⟩ := hpointers
  obtain ⟨hip', hfop', hdp'⟩ := hpointers'
  refine ⟨BitVec.eq_of_toNat_eq ?_, ?_, ?_⟩
  · have hlt := n.fop.isLt
    rw [hfop', BitVec.extractLsb'_toNat, Nat.shiftRight_zero]
    omega
  · rw [address20, hip', hip, address20, Nat.mod_mod]
  · rw [address20, hdp', hdp, address20, Nat.mod_mod]

end

/-- Settles O58: what one NPX shows the other takes. -/
theorem stateImageRoundTrip : Obligations.StateImageRoundTrip := by
  intro pl n m hpm r
  have hshown := environment_shown pl n (registerBytes n)
  have htaken : EnvironmentTaken m r _ := m.restore_taken (bytesOfWords (environment pl n) ++ registerBytes n)
  obtain ⟨htags, htop, hcc, hflags, hcw⟩ := fields_of_shown_taken hshown htaken
  have hst : ∀ k, r.st k = n.st k := fun k =>
    BitVec.eq_of_toNat_eq ((m.restore_registersShown _ k).symm.trans (registers_shown pl n k))
  exact ⟨Npx.regs_eq_of_st htop hst, htags, htop, hcc, hflags, hcw, (m.restore_pm _).trans hpm,
    fun hn => pointers_of_shown_taken_protected hshown htaken hn (hpm.trans hn),
    fun hn => pointers_of_shown_taken_real hshown htaken hn (hpm.trans hn)⟩

end Sys2Proof.Machine
end

section
/-! PROOFS. Interrupts 7 and 16 and the states outside the spec: every ESC starts through `startEsc`, so each of its tests
says what all of them do (spec 60 R391, R392, 70 R441). -/

namespace Sys2Proof.Machine

open Sys2Proof.Safety

/-! ## Every instruction is a WAIT or an ESC that starts through `startEsc` -/

theorem eq_fwait_of_isWait {i : Instr} (h : isWait i = true) : ∃ p, i = .fwait p := by
  cases i with
  | fwait p => exact ⟨p, rfl⟩
  | _ => cases h

theorem controlRegister_eq_startEsc (checks : Bool) (i : Instr) (f : Npx → Npx) (s : State) :
    ∃ absent run, controlRegister checks i f s = startEsc checks absent run s := ⟨_, _, rfl⟩

theorem execFnstswAx_eq_startEsc (p : List Seg) (s : State) :
    ∃ absent run, execFnstswAx p s = startEsc false absent run s := ⟨_, _, rfl⟩

/-- An ESC starts through `startEsc`, which tests BUSY and ERROR unless it is a no-wait form (spec 30 R150). -/
theorem exec_eq_startEsc {i : Instr} (s : State) (h : isWait i = false) :
    ∃ absent run, exec i s = startEsc (!noWait i) absent run s := by
  unfold exec
  cases i with
  | fwait => cases h
  | fneni | fndisi | fnclex | fninit | fsetpm => exact controlRegister_eq_startEsc ..
  | fnstswAx => exact execFnstswAx_eq_startEsc ..
  | _ => exact ⟨_, _, rfl⟩

/-- An instruction that precision control applies to tests the control word once it has started (spec 10 R34). -/
theorem exec_eq_usingPrecision {i : Instr} (s : State) (h : usesPrecision i = true) :
    ∃ absent run, exec i s = startEsc true absent (usingPrecision true run) s := by
  unfold usesPrecision at h
  rw [Bool.or_eq_true, Bool.or_eq_true] at h
  rcases h with (h | h) | h
  · obtain ⟨_, hform⟩ := Option.isSome_iff_exists.mp h
    exact ⟨_, _, (exec_arithRegForm s hform).1⟩
  · obtain ⟨_, hform⟩ := Option.isSome_iff_exists.mp h
    exact ⟨_, _, exec_arithMemForm s hform⟩
  · split at h
    · exact ⟨_, _, rfl⟩
    · cases h

/-! ## The tests of an ESC and of a WAIT that stop them, in their order -/

/-- ERROR stops an ESC that checks for it and that nothing before has stopped (spec 60 R391). -/
theorem startEsc_npxError {absent run : State → Outcome} {s : State} (h : Passed s) (hidle : s.npx.busy = false)
    (herror : s.error = true) : startEsc true absent run s = .next (takeInterrupt .npxError s) := by
  simp [startEsc, h.present, h.noEm, h.noTs, h.noImage, hidle, herror]

theorem usingPrecision_reserved {run : State → Outcome} {s : State} (h : precisionReserved s.npx.cw = true) :
    usingPrecision true run s = .refused .reservedPrecision := if_pos h

section
variable {p : List Seg} {s : State}

theorem execFwait_mpAndEmSet (hmp : s.cpu.mp = true) (hem : s.cpu.em = true) :
    execFwait p s = .refused .mpAndEmSet := by simp [execFwait, hmp, hem]

theorem execFwait_notAvailable (hno : (s.cpu.mp && s.cpu.em) = false) (hmp : s.cpu.mp = true) (hts : s.cpu.ts = true) :
    execFwait p s = .next (takeInterrupt .notAvailable s) := by
  rw [hmp, Bool.true_and] at hno
  simp [execFwait, hno, hmp, hts]

theorem execFwait_npxError (hem : s.cpu.em = false) (hno : (s.cpu.mp && s.cpu.ts) = false)
    (hpresent : s.platform.npxPresent = true) (herror : s.error = true) :
    execFwait p s = .next (takeInterrupt .npxError s) := by
  simp only [execFwait, hem, hno, hpresent, herror, Bool.and_false, Bool.not_true, Bool.not_false, Bool.true_and,
    Bool.false_eq_true, if_false, if_true]

end

/-! ## The statements -/

/-- Settles O10: EM or TS stops every ESC, MP with TS a WAIT. -/
theorem notAvailableTrap : Obligations.NotAvailableTrap := by
  intro i s hno hset
  refine ⟨?_, takeInterruptFrom_npx ..⟩
  split at hset
  case isTrue hwait =>
    obtain ⟨p, rfl⟩ := eq_fwait_of_isWait hwait
    exact execFwait_notAvailable hno hset.1 hset.2
  case isFalse hesc =>
    obtain ⟨_, _, hexec⟩ := exec_eq_startEsc s (Bool.eq_false_of_not_eq_true hesc)
    exact hexec.trans (startEsc_notAvailable hno hset)

/-- Settles O11: ERROR stops every ESC that checks for it, and a WAIT. -/
theorem numericErrorTrap : Obligations.NumericErrorTrap := by
  intro i s hchecks hpresent herror hem hrest
  refine ⟨?_, takeInterruptFrom_npx ..⟩
  split at hrest
  case isTrue hwait =>
    obtain ⟨p, rfl⟩ := eq_fwait_of_isWait hwait
    exact execFwait_npxError hem hrest hpresent herror
  case isFalse hesc =>
    obtain ⟨hts, himage, hidle⟩ := hrest
    obtain ⟨_, _, hexec⟩ := exec_eq_startEsc s (Bool.eq_false_of_not_eq_true hesc)
    rw [hchecks] at hexec
    exact hexec.trans (startEsc_npxError ⟨hpresent, hem, hts, himage⟩ hidle herror)

/-- MP with EM stops every instruction of the table (spec 60 R392). -/
theorem exec_mpAndEmSet (i : Instr) {s : State} (hmp : s.cpu.mp = true) (hem : s.cpu.em = true) :
    exec i s = .refused .mpAndEmSet := by
  cases hwait : isWait i with
  | true =>
    obtain ⟨p, rfl⟩ := eq_fwait_of_isWait hwait
    exact execFwait_mpAndEmSet hmp hem
  | false =>
    obtain ⟨_, _, hexec⟩ := exec_eq_startEsc s hwait
    exact hexec.trans (startEsc_mpAndEmSet hmp hem)

/-- Settles O16, from the three tests that refuse. -/
theorem outsideTheSpecRefused : Obligations.OutsideTheSpecRefused := by
  intro i s
  refine ⟨exec_mpAndEmSet i, fun hesc hpresent hem hts himage => ?_, fun hused hready hreserved => ?_⟩
  · obtain ⟨_, _, hexec⟩ := exec_eq_startEsc s hesc
    exact hexec.trans (startEsc_escBeforeWait hem hts hpresent himage)
  · obtain ⟨_, _, hexec⟩ := exec_eq_usingPrecision s hused
    exact hexec.trans ((startEsc_ready hready).trans (usingPrecision_reserved hreserved))

end Sys2Proof.Machine
end

section
/-! PROOFS. Taking an interrupt in Real-Address mode and returning from it (spec 60 R390 to R395): what each push puts on
the stack, what a later push leaves there, and what IRET pops. -/

namespace Sys2Proof.Machine

open Sys2Proof.Safety

/-! ## Bytes that stay stored, and words read from two bytes -/

/-- What a change of memory does not reach stays stored. -/
theorem stored_of_outside {s t : State} {stored changed : List Nat} {bytes : List Byte} (h : Stored s stored bytes)
    (hout : SameMemoryOutside s t changed) (hdisjoint : stored.Disjoint changed) : Stored t stored bytes :=
  (List.map_congr_left fun a ha => hout a fun hc => hdisjoint ha hc).trans h

theorem stored_append {t : State} {a b : List Nat} {x y : List Byte} (ha : Stored t a x) (hb : Stored t b y) :
    Stored t (a ++ b) (x ++ y) := List.map_append.trans (congrArg₂ _ ha hb)

theorem sameMemoryOutside_trans {s t u : State} {a b : List Nat} (h : SameMemoryOutside s t a)
    (h' : SameMemoryOutside t u b) : SameMemoryOutside s u (b ++ a) := fun x hx =>
  (h' x fun hb => hx (List.mem_append_left _ hb)).trans (h x fun ha => hx (List.mem_append_right _ ha))

/-- Bytes at consecutive offsets are the first of them and then the others. -/
theorem State.addresses_append (s : State) (g : SegReg) (off : Word) (m n : Nat) :
    s.addresses g off (m + n) = s.addresses g off m ++ s.addresses g (off + BitVec.ofNat 16 m) n := by
  simp only [State.addresses, List.range_add, List.map_append, List.map_map]
  congr 1
  refine List.map_congr_left fun k _ => ?_
  simp only [Function.comp_apply, BitVec.ofNat_add, BitVec.add_assoc]

/-- A word is the number of its two bytes (spec 20 R100). -/
theorem ofNat_leNat_bytes (w : Word) : BitVec.ofNat 16 (leNat [lowByte w, highByte w]) = w := by
  apply BitVec.eq_of_toNat_eq
  have := w.isLt
  simp only [leNat, lowByte, highByte, BitVec.toNat_ofNat, BitVec.extractLsb'_toNat, Nat.shiftLeft_eq,
    Nat.shiftRight_eq_div_pow]
  omega

/-! ## Pushing (spec 60 R395) -/

/-- A word is stored at two addresses, no other byte changes, and the canonical form of memory is kept. -/
structure PushedAt (s t : State) (addresses : List Nat) (w : Word) : Prop where
  stored : s.mem.wf = true → Stored t addresses [lowByte w, highByte w]
  outside : SameMemoryOutside s t addresses
  wf : s.mem.wf = true → t.mem.wf = true

/-- A push stores its word below the stack pointer. -/
theorem State.pushWord_pushedAt (s : State) (w : Word) {addresses : List Nat}
    (h : s.addresses s.cpu.ss (s.cpu.sp - 2) 2 = addresses) : PushedAt s (s.pushWord w) addresses w := by
  subst h
  refine ⟨fun hwf => ?_, fun a ha => ?_, s.pushWord_wf w⟩
  · exact Memory.map_read_writeAll _ _ _ (s.addresses_nodup _ _ (Nat.le_of_ble_eq_true rfl)) (s.addresses_length ..) hwf
  · exact State.read_storeBytes_other { s with cpu := { s.cpu with sp := s.cpu.sp - 2 } } _ _ _ a ha

/-- The addresses of the three words that FLAGS, CS and IP are pushed to, IP's (the lowest) first. -/
def State.linkWord (s : State) (k : Nat) : List Nat :=
  s.addresses s.cpu.ss (s.cpu.sp - 6 + BitVec.ofNat 16 (2 * k)) 2

/-- The six bytes pushed are three words. -/
theorem State.addresses_link (s : State) :
    s.addresses s.cpu.ss (s.cpu.sp - 6) 6 = s.linkWord 0 ++ (s.linkWord 1 ++ s.linkWord 2) := by
  have hzero : s.linkWord 0 = s.addresses s.cpu.ss (s.cpu.sp - 6) 2 :=
    congrArg (s.addresses s.cpu.ss · 2) (BitVec.add_zero _)
  rw [hzero, s.addresses_append _ _ 2 4, s.addresses_append _ _ 2 2, BitVec.add_assoc]
  rfl

theorem State.linkWord_disjoint (s : State) :
    (s.linkWord 0).Disjoint (s.linkWord 1 ++ s.linkWord 2) ∧ (s.linkWord 1).Disjoint (s.linkWord 2) := by
  have hnodup := s.addresses_nodup s.cpu.ss (s.cpu.sp - 6) (n := 6) (Nat.le_of_ble_eq_true rfl)
  rw [s.addresses_link] at hnodup
  exact ⟨hnodup.disjoint, hnodup.of_append_right.disjoint⟩

section
variable (s : State) (sel off : Word)

/-- FLAGS, then the selector, then the offset are pushed, each below the one before. -/
theorem State.pushLink_pushes :
    ∃ t u, PushedAt s t (s.linkWord 2) s.cpu.flags ∧ PushedAt t u (s.linkWord 1) sel ∧
      PushedAt u (s.pushLink sel off) (s.linkWord 0) off := by
  have hflags : s.addresses s.cpu.ss (s.cpu.sp - 2) 2 = s.linkWord 2 :=
    congrArg (s.addresses s.cpu.ss · 2) (by bv_omega)
  have hsel : s.addresses s.cpu.ss (s.cpu.sp - 2 - 2) 2 = s.linkWord 1 :=
    congrArg (s.addresses s.cpu.ss · 2) (by bv_omega)
  have hoff : s.addresses s.cpu.ss (s.cpu.sp - 2 - 2 - 2) 2 = s.linkWord 0 :=
    congrArg (s.addresses s.cpu.ss · 2) (by bv_omega)
  exact ⟨_, _, s.pushWord_pushedAt _ hflags, State.pushWord_pushedAt _ _ hsel, State.pushWord_pushedAt _ _ hoff⟩

/-- No push reaches a word pushed before it. -/
theorem State.pushLink_stored (hwf : s.mem.wf = true) :
    Stored (s.pushLink sel off) (s.linkWord 0) [lowByte off, highByte off] ∧
    Stored (s.pushLink sel off) (s.linkWord 1) [lowByte sel, highByte sel] ∧
    Stored (s.pushLink sel off) (s.linkWord 2) [lowByte s.cpu.flags, highByte s.cpu.flags] := by
  obtain ⟨t, u, hflags, hsel, hoff⟩ := s.pushLink_pushes sel off
  obtain ⟨hlow, hhigh⟩ := s.linkWord_disjoint
  obtain ⟨hlowSel, hlowFlags⟩ := List.disjoint_append_right.mp hlow
  have hwft := hflags.wf hwf
  exact ⟨hoff.stored (hsel.wf hwft), stored_of_outside (hsel.stored hwft) hoff.outside hlowSel.symm,
    stored_of_outside (stored_of_outside (hflags.stored hwf) hsel.outside hhigh.symm) hoff.outside hlowFlags.symm⟩

/-- The three pushes change no byte but those six. -/
theorem State.pushLink_outside :
    SameMemoryOutside s (s.pushLink sel off) (s.addresses s.cpu.ss (s.cpu.sp - 6) 6) := by
  obtain ⟨t, u, hflags, hsel, hoff⟩ := s.pushLink_pushes sel off
  rw [s.addresses_link]
  exact sameMemoryOutside_trans (sameMemoryOutside_trans hflags.outside hsel.outside) hoff.outside

theorem State.pushLink_cpu_eq : (s.pushLink sel off).cpu = { s.cpu with sp := s.cpu.sp - 6 } := by
  rw [s.pushLink_cpu, show s.cpu.sp - 2 - 2 - 2 = s.cpu.sp - 6 by bv_omega]

end

/-! ## Delivery and return in Real-Address mode -/

theorem stored_enter {s : State} (code : SegReg) (entry : Word) {a : List Nat} {b : List Byte} (h : Stored s a b) :
    Stored (s.enter code entry) a b := h

theorem outside_enter {s t : State} (code : SegReg) (entry : Word) {a : List Nat} (h : SameMemoryOutside s t a) :
    SameMemoryOutside s (t.enter code entry) a := h

/-- A word of memory that a change does not reach. -/
theorem wordAt_of_outside {s t : State} {changed : List Nat} (hout : SameMemoryOutside s t changed) {a : Nat}
    (ha : a ∉ changed) (ha' : a + 1 ∉ changed) : t.wordAt a = s.wordAt a := by
  rw [State.wordAt, State.wordAt, hout a ha, hout (a + 1) ha']

/-- Settles O14: the six bytes pushed are the link, and the vector, which is not among them, is as it was. -/
theorem interruptEntry : Obligations.InterruptEntry := by
  intro v sel off s hreal hwf hvector
  have hout := s.pushLink_outside sel off
  obtain ⟨hoff, hsel, hflags⟩ := s.pushLink_stored sel off hwf
  have hip := wordAt_of_outside hout (hvector 0 (by decide)) (hvector 1 (by decide))
  have hcs := wordAt_of_outside hout (hvector 2 (by decide)) (hvector 3 (by decide))
  rw [Nat.add_zero] at hip
  dsimp only
  refine ⟨?_, ?_, ?_, takeInterruptFrom_npx .., takeInterruptFrom_platform ..⟩ <;>
    rw [takeInterruptFrom_real v sel off s hreal]
  · rw [s.addresses_link]
    exact stored_enter _ _ (stored_append hoff (stored_append hsel hflags))
  · exact outside_enter _ _ hout
  · rw [State.enter_cpu, hip, hcs, State.pushLink_cpu_eq]
    rfl

/-- A word of the link is found from a stack pointer six below. -/
theorem stackWord_of_stored {s t : State} {k : Nat} {w : Word} (hmode : t.cpu.protectedMode = s.cpu.protectedMode)
    (hss : t.cpu.ss = s.cpu.ss) (hsp : t.cpu.sp = s.cpu.sp - 6)
    (h : Stored t (s.linkWord k) [lowByte w, highByte w]) : t.stackWord k = w := by
  have haddresses : t.addresses t.cpu.ss (t.cpu.sp + BitVec.ofNat 16 (2 * k)) 2 = s.linkWord k := by
    simp only [State.linkWord, State.addresses, State.physical, hmode, hss, hsp]
  rw [State.stackWord, State.readBytes, haddresses, h, ofNat_leNat_bytes]

/-- IRET in Real-Address mode goes to the selector and offset on the stack (spec 60 R391). -/
theorem iret_real {s : State} (h : s.cpu.protectedMode = false) :
    iret s = .next { s with cpu := { s.cpu with
      ip := s.stackWord 0, cs := realSegment (s.stackWord 1), flags := s.stackWord 2, sp := s.cpu.sp + 6 } } := by
  simp [iret, h]

/-- IRET pops a link that lies below the stack pointer of s, and the stack pointer is that of s again. -/
theorem iret_of_stored {s t : State} {sel off flags : Word} (hreal : t.cpu.protectedMode = false)
    (hmode : t.cpu.protectedMode = s.cpu.protectedMode) (hss : t.cpu.ss = s.cpu.ss) (hsp : t.cpu.sp = s.cpu.sp - 6)
    (hoff : Stored t (s.linkWord 0) [lowByte off, highByte off])
    (hsel : Stored t (s.linkWord 1) [lowByte sel, highByte sel])
    (hflags : Stored t (s.linkWord 2) [lowByte flags, highByte flags]) :
    iret t = .next { t with cpu := { t.cpu with
      ip := off, cs := realSegment sel, flags := flags, sp := s.cpu.sp } } := by
  rw [iret_real hreal, stackWord_of_stored hmode hss hsp hoff, stackWord_of_stored hmode hss hsp hsel,
    stackWord_of_stored hmode hss hsp hflags, hsp, BitVec.sub_add_cancel]

/-- Settles O15: IRET pops the three words that the delivery pushed. -/
theorem interruptReturn : Obligations.InterruptReturn := by
  intro v sel off s hreal hwf
  obtain ⟨hoff, hsel, hflags⟩ := s.pushLink_stored sel off hwf
  have hcpu := s.pushLink_cpu_eq sel off
  rw [takeInterruptFrom_real v sel off s hreal]
  refine ⟨_, iret_of_stored (s := s) hreal (congrArg Cpu.protectedMode hcpu :) (congrArg Cpu.ss hcpu :)
    (congrArg Cpu.sp hcpu :) (stored_enter _ _ hoff) (stored_enter _ _ hsel) (stored_enter _ _ hflags), ?_, ?_, ?_⟩
  · simp only [State.enter_cpu, hcpu]
  · simp only [State.enter_npx, State.pushLink_npx]
  · simp only [State.enter_platform, State.pushLink_platform]

end Sys2Proof.Machine
end

section
/-! PROOFS. The invariant holds after RESET (spec 70 R421, R441): with `invariantKept`, in every state a run from reset
gets to. -/

namespace Sys2Proof.Machine

/-- After RESET nothing is in flight and no image is pending (spec 10 R55). -/
theorem activityInv_reset : ActivityInv Npx.reset :=
  activityInv_of_idle rfl nofun

/-- Settles O7: memory after RESET lists no cell, so it is canonical, and the NPX is idle. -/
theorem invariantAtReset : Obligations.InvariantAtReset :=
  have hmemory : State.reset.mem.wf = true := rfl
  inv_iff.mpr ⟨hmemory, activityInv_reset⟩

end Sys2Proof.Machine
end
